-- ==== Sys2Proof/Word.lean ====
section
/-! DEFINITION. The two word sizes of CORE (spec/00_scope.md R8): a byte is 8 bits, a word is 32 bits, all unsigned. -/

namespace Sys2Proof

/-- A 32-bit word: operand registers, RES, table entries, cipher state words (R8). -/
abbrev Word := BitVec 32

/-- An 8-bit byte: buffer memory, RC4 cells and indices, fault codes (R8). -/
abbrev Byte := BitVec 8

end Sys2Proof
end

