-- ==== Sys2Proof/Machine/Bits.lean ====
section
/-! DEFINITION. The byte and word primitives of the spec's pseudocode (spec/00_scope.md R9, R10; 20_memory.md R93). -/

namespace Sys2Proof.Machine

open Sys2Proof

/-- `byte_0(w) = w[31:24]` (00 R9). -/
def byte0 (w : Word) : Byte := w.extractLsb' 24 8

/-- `byte_1(w) = w[23:16]` (00 R9). -/
def byte1 (w : Word) : Byte := w.extractLsb' 16 8

/-- `byte_2(w) = w[15:8]` (00 R9). -/
def byte2 (w : Word) : Byte := w.extractLsb' 8 8

/-- `byte_3(w) = w[7:0]` (00 R9). -/
def byte3 (w : Word) : Byte := w.extractLsb' 0 8

/-- `be32(b0, b1, b2, b3) = b0 ++ b1 ++ b2 ++ b3`, first byte most significant (00 R10). -/
def be32 (b0 b1 b2 b3 : Byte) : Word := b0 ++ b1 ++ b2 ++ b3

/-- `bytes_be(w)` (00 R10). -/
def bytesBe (w : Word) : List Byte := [byte0 w, byte1 w, byte2 w, byte3 w]

/-- `rotl32(w, n)` (00 R9). -/
def rotl32 (w : Word) (n : Nat) : Word := w.rotateLeft n

/-- `rotr32(w, n)` (00 R9). -/
def rotr32 (w : Word) (n : Nat) : Word := w.rotateRight n

/-- The entry of a 256-entry array that a byte indexes. -/
def entry {α : Type} (t : Vector α 256) (b : Byte) : α := t[b.toNat]'b.isLt

end Sys2Proof.Machine
end

