-- ==== Sys2Proof/Config.lean ====
section
/-! DEFINITION. What an implementation of CORE fixes: the two OPEN parameters of spec/00_scope.md R7. -/

namespace Sys2Proof

/-- The two parameters the spec leaves open as model arguments (00 R7, 92 D4 and D16).
A value of this type stands in State and no step changes it (log entry 5), so a statement over all states is a statement
for every value of both parameters. -/
structure Params where
  /-- `MEM_SIZE`, the number of bytes of buffer memory (20 R90). -/
  memSize : Nat
  /-- `RC4_IJ_PERSIST`: are the RC4 indices kept from one RC4.ENC or RC4.DEC to the next (41 R176)? -/
  rc4IjPersist : Bool
  deriving DecidableEq, Repr

/-- `2 <= MEM_SIZE <= 2^32` (00 R7, 20 R90). -/
abbrev Params.Wf (p : Params) : Prop := 2 ≤ p.memSize ∧ p.memSize ≤ 2 ^ 32

end Sys2Proof
end

