-- ==== Sys2Proof/Machine/Launch.lean ====
section
/-! DEFINITION. The values the model's own fields take in State.reset, where the spec leaves them to the launch of a run
(spec/00_scope.md R7, 10_state.md R37). -/

namespace Sys2Proof.Machine

open Sys2Proof

/-- DESIGN CHOICE (unsafe, log entry 5): the parameters of State.reset. The spec leaves both OPEN; 0x1000 is the size its own
vectors and programs use (95 section 3). No statement rests on them: the statements are over all values of `params`. -/
def launchParams : Params := { memSize := 0x1000, rc4IjPersist := true }

end Sys2Proof.Machine
end

