-- ==== Sys2Proof/Syntax.lean ====
section
/-! DEFINITION. The fourteen commands of CORE (spec/30_encoding.md R123), one constructor per row of opcode_table.json.
Every operand but MODE is in a host register (R124), so MODE is the only argument a constructor has. -/

namespace Sys2Proof

/-- The `MODE` field of an AES.INIT word, bits 9:8 (30 R122). `modeNone` and `reserved` are valid encodings that AES.INIT
refuses recoverably. -/
inductive ModeField where
  | modeNone     -- 0, None
  | ecb       -- 1
  | cbc       -- 2
  | reserved  -- 3
  deriving DecidableEq, Repr

/-- A command of CORE (30 R123). -/
inductive Instr where
  | pkcs5PadLen
  | pkcs5Pad
  | pkcs5UnpadLen
  | pkcs5ChkLen
  | rc4Init
  | rc4Enc
  | rc4Dec
  | aesInit (mode : ModeField)
  | aesEnc
  | aesDec
  | aesIsInit
  | bfInit
  | bfEnc
  | bfDec
  deriving DecidableEq, Repr

end Sys2Proof
end

