-- ==== Sys2Proof/Machine/State.lean ====
section
/-! DEFINITION. The state of CORE as plain data (spec/10_state.md R20 to R37), the reasons a step can stop, and reset.

A context cell that "holds no value" (10 R36) is ABSENT: the context of a unit is an Option, whose absence is the spec's own
state *uninitialized* (10 R25, R36, R37; 41 R170), not a missing reset value. The flags `RC4.INIT`, `AES.Mode != 0`,
`AES.IV_VALID` and `BF.INIT` say exactly which cells are present, so they are stored once, as that presence, and read
through `Machine/Flags.lean` (log entry 2). No meaning can read an absent cell. -/

namespace Sys2Proof.Machine

open Sys2Proof

/-- Four 32-bit words: an AES block, a round key or the IV (43 R210, 10 R30). -/
structure Block where
  w0 : Word
  w1 : Word
  w2 : Word
  w3 : Word
  deriving DecidableEq, Repr

/-- The RC4 context while `RC4.INIT = 1` (10 R29). -/
structure Rc4Context where
  /-- `RC4.S[0..255]`, the permutation. -/
  s : Vector Byte 256
  /-- `RC4.I`. -/
  i : Byte
  /-- `RC4.J`. -/
  j : Byte
  deriving DecidableEq, Repr

/-- `AES.Nr`: 10, 12 or 14 (10 R30). -/
inductive AesRounds where
  | r10
  | r12
  | r14
  deriving DecidableEq, Repr

/-- The round count as a number (00 R6 `AES_NR`). -/
def AesRounds.val : AesRounds → Nat
  | .r10 => 10
  | .r12 => 12
  | .r14 => 14

/-- `AES.Mode` of an initialized context: ECB (1) or CBC (2); None (0) is the absent context and 3 never occurs (10 R27). -/
inductive AesMode where
  | ecb
  | cbc
  deriving DecidableEq, Repr

/-- The AES context while `AES.Mode != 0` (10 R30): `4*(Nr+1)` words of each schedule are written, the rest hold no value and
are not represented (10 R36, log entry 3). -/
structure AesContext where
  /-- `AES.Nr`. -/
  nr : AesRounds
  /-- `AES.Ek[0 .. 4*(Nr+1)-1]`. -/
  ek : Vector Word (4 * (nr.val + 1))
  /-- `AES.Dk[0 .. 4*(Nr+1)-1]`. -/
  dk : Vector Word (4 * (nr.val + 1))
  /-- `AES.IV[0..3]` while `AES.IV_VALID = 1`; absent while it is 0. -/
  iv : Option Block
  /-- `AES.Mode`. -/
  mode : AesMode
  deriving DecidableEq, Repr

/-- The Blowfish context while `BF.INIT = 1` (10 R32). -/
structure BfContext where
  /-- `BF.P[0..17]`. -/
  p : Vector Word 18
  /-- `BF.S[0..3][0..255]`. -/
  s : Vector (Vector Word 256) 4
  deriving DecidableEq, Repr

/-- Buffer memory (10 R34, 20 R90): the bytes that differ from 0, at strictly rising addresses. -/
abbrev Memory := List Host.Cell

/-- One action of the host between commands (20 R107, 10 R28, 70 R300). Host reads change nothing and are functions of
State (`Machine/Host.lean`). -/
inductive HostAction where
  /-- A write to the host register of this index (10 R28): 0 is CMD, which starts a command. -/
  | writeReg (index : Nat) (value : Word)
  /-- A write of one byte of MEM (10 R38). -/
  | writeMem (addr : Nat) (value : Byte)
  /-- The reset event (70 R300). -/
  | reset
  deriving DecidableEq, Repr

/-- The state of CORE, with the parameters of the run and the host's actions still to come. -/
structure State where
  /-- Operand register A0 (10 R21). -/
  a0 : Word
  /-- Operand register A1 (10 R21). -/
  a1 : Word
  /-- Operand register A2 (10 R21). -/
  a2 : Word
  /-- Result register RES (10 R22). -/
  res : Word
  /-- The sticky flag FAULT (10 R26, 60 R274). -/
  fault : Bool
  /-- ERR, the fault code (10 R27, 60 R270). -/
  err : Byte
  /-- FOPC, the OPC byte of the command that faulted (10 R27, 60 R272). -/
  fopc : Byte
  /-- The RC4 context; present while RC4.INIT = 1 (10 R29). -/
  rc4 : Option Rc4Context
  /-- The AES context; present while AES.Mode != 0 (10 R30). -/
  aes : Option AesContext
  /-- The BF context; present while BF.INIT = 1 (10 R32). -/
  bf : Option BfContext
  /-- Buffer memory MEM (10 R34). -/
  mem : Memory
  /-- The model's own field: the OPEN parameters of the run (00 R7); no step changes it (log entry 5). -/
  params : Params
  /-- The model's own field: the host's actions still to come, first one first (30 R131, log entry 1). -/
  host : List HostAction
  deriving DecidableEq, Repr

/-- Why the machine stops. A fault of the SPEC is no stop: it is a next state with FAULT = 1 (60 R272). -/
inductive Fault where
  /-- Raised by `Machine/Host.lean`'s write of a byte of MEM whose address names no byte (20 R90: an address "names nothing"
  at or above MEM_SIZE). Safe: the model stops where the spec gives no effect (log entry 6). -/
  | hostAddressOutsideMem
  deriving DecidableEq, Repr

/-- Why an instruction has no meaning. -/
inductive Refusal where
  /-- Raised by an arm of `exec` whose instruction has no meaning yet; no arm does. Safe: the model stops. -/
  | notModelled (mnemonic : String)
  deriving DecidableEq, Repr

/-- The state after reset (10 R37) of a CORE with these parameters whose buffer memory holds `m`, for any host. Reset gives
every register and flag a value of its own; the context arrays hold no value; MEM is not changed by reset (70 R301), so what
stands there at power-up is an input of the run (93 U9). -/
def State.afterReset (p : Params) (m : Memory) (host : List HostAction) : State where
  a0 := 0
  a1 := 0
  a2 := 0
  res := 0
  fault := false
  err := 0
  fopc := 0
  rc4 := none
  aes := none
  bf := none
  mem := m
  params := p
  host := host

/-- The machine right after reset (10 R37), with MEM all zero (log entry 4), the launch parameters (log entry 5) and a host
that has nothing to do yet (log entry 1). -/
def State.reset : State := State.afterReset launchParams [] []

end Sys2Proof.Machine
end

