-- ==== Sys2Proof/Machine/Flags.lean ====
section
/-! DEFINITION. The flags and the status register as views of State (spec/10_state.md R25 to R27). -/

namespace Sys2Proof.Machine

open Sys2Proof

/-- A flag as one bit. -/
def bit (b : Bool) : BitVec 1 := BitVec.ofBool b

/-- The flag `RC4.INIT` (10 R26, 41 R170). -/
def State.rc4Init (s : State) : Bool := s.rc4.isSome

/-- The flag `BF.INIT` (10 R26). -/
def State.bfInit (s : State) : Bool := s.bf.isSome

/-- The bits of an initialized context's mode: 1 ECB, 2 CBC (10 R30). -/
def AesMode.bits : AesMode → BitVec 2
  | .ecb => 1
  | .cbc => 2

/-- The cell `AES.Mode`: 0 None, 1 ECB, 2 CBC (10 R26, R27). -/
def State.aesMode (s : State) : BitVec 2 :=
  match s.aes with
  | none => 0
  | some c => c.mode.bits

/-- The derived flag `AES_INIT = (AES.Mode != 0)` (10 R25). -/
def State.aesInit (s : State) : Bool := s.aesMode != 0

/-- The cell `AES.IV_VALID` (10 R26). -/
def State.aesIvValid (s : State) : Bool :=
  match s.aes with
  | none => false
  | some c => c.iv.isSome

/-- The cell `AES.Nr`, where the context holds one (10 R30). -/
def State.aesNr (s : State) : Option Nat := s.aes.map fun c => c.nr.val

/-- The status register (10 R27): bits 31:24 and 7 read 0. -/
def State.status (s : State) : Word :=
  (0 : BitVec 8) ++ s.fopc ++ s.err ++ (0 : BitVec 1) ++ bit s.aesIvValid ++ s.aesMode ++ bit s.bfInit ++ bit s.aesInit
    ++ bit s.rc4Init ++ bit s.fault

end Sys2Proof.Machine
end

