-- ==== Sys2Proof/WellFormed.lean ====
section
/-! DEFINITION. Which command words are well-formed (spec/30_encoding.md R120, R121, R125). A term of `Instr` has no field
that could hold a bad value (MODE is an enumeration), so the checks are on the 32-bit word the host writes to CMD. -/

namespace Sys2Proof

/-- Is this byte one of the fourteen `OPC` values of 30 R123? -/
def opcListed (opc : Byte) : Bool :=
  [0x10, 0x11, 0x12, 0x13, 0x20, 0x21, 0x22, 0x30, 0x31, 0x32, 0x33, 0x40, 0x41, 0x42].contains opc

/-- Field `ZERO`, bits 31:10, is 0 (30 R120). -/
def zeroFieldOk (w : Word) : Bool := w.extractLsb' 10 22 == 0

/-- Field `OPC`, bits 7:0, is listed (30 R121). -/
def opcFieldOk (w : Word) : Bool := opcListed (w.extractLsb' 0 8)

/-- Field `MODE`, bits 9:8, is 0 in every command but AES.INIT (30 R120, R121). -/
def modeFieldOk (w : Word) : Bool := w.extractLsb' 8 2 == 0 || w.extractLsb' 0 8 == (0x30 : Byte)

/-- The word names a command: the three tests of 30 R121. -/
def wordWellFormed (w : Word) : Bool := zeroFieldOk w && opcFieldOk w && modeFieldOk w

/-- Every term of `Instr` is well-formed: the only immediate is MODE and all four of its values are valid encodings of
AES.INIT (30 R122). -/
def Instr.wellFormed (_i : Instr) : Bool := true

end Sys2Proof
end

