-- ==== Sys2Proof/Decode.lean ====
section
/-! DEFINITION. The decoder of command words (spec/30_encoding.md R121), total on all 2^32 words, and the encoder written
from the same table (R120, R123). -/

namespace Sys2Proof

/-- Why a word names no command (30 R121, R125); all three raise `Fault(ILLEGAL_CMD)`. -/
inductive DecodeError where
  | zeroField   -- bits 31:10 are not all 0
  | unlistedOpc -- bits 7:0 are none of the fourteen OPC values
  | modeField   -- bits 9:8 are not 0 and OPC is not 0x30
  deriving DecidableEq, Repr

/-- `CW.OPC`, bits 7:0 (30 R120). -/
def opcField (w : Word) : Byte := w.extractLsb' 0 8

/-- `CW.MODE`, bits 9:8 (30 R120). -/
def modeField (w : Word) : BitVec 2 := w.extractLsb' 8 2

/-- `CW.ZERO`, bits 31:10 (30 R120). -/
def zeroField (w : Word) : BitVec 22 := w.extractLsb' 10 22

/-- The MODE immediate: 0 None, 1 ECB, 2 CBC, 3 reserved (30 R122). -/
def ModeField.ofBits (m : BitVec 2) : ModeField :=
  if m = 0 then .modeNone else if m = 1 then .ecb else if m = 2 then .cbc else .reserved

/-- The bits of the MODE immediate (30 R122). -/
def ModeField.bits : ModeField → BitVec 2
  | .modeNone => 0
  | .ecb => 1
  | .cbc => 2
  | .reserved => 3

/-- The command an OPC byte and a MODE field name, where the byte is listed (30 R123). -/
def commandOf (opc : Byte) (mode : BitVec 2) : Option Instr :=
  if opc = 0x10 then some .pkcs5PadLen
  else if opc = 0x11 then some .pkcs5Pad
  else if opc = 0x12 then some .pkcs5UnpadLen
  else if opc = 0x13 then some .pkcs5ChkLen
  else if opc = 0x20 then some .rc4Init
  else if opc = 0x21 then some .rc4Enc
  else if opc = 0x22 then some .rc4Dec
  else if opc = 0x30 then some (.aesInit (ModeField.ofBits mode))
  else if opc = 0x31 then some .aesEnc
  else if opc = 0x32 then some .aesDec
  else if opc = 0x33 then some .aesIsInit
  else if opc = 0x40 then some .bfInit
  else if opc = 0x41 then some .bfEnc
  else if opc = 0x42 then some .bfDec
  else none

/-- Decoding a word written to CMD, in the order of 30 R121: ZERO, then OPC, then MODE. -/
def decode (w : Word) : Except DecodeError Instr :=
  if zeroField w ≠ 0 then .error .zeroField
  else
    match commandOf (opcField w) (modeField w) with
    | none => .error .unlistedOpc
    | some i => if modeField w ≠ 0 ∧ opcField w ≠ 0x30 then .error .modeField else .ok i

/-- The OPC byte of each command (30 R123); a fault records it in FOPC (60 R272). -/
def opcOf : Instr → Byte
  | .pkcs5PadLen => 0x10
  | .pkcs5Pad => 0x11
  | .pkcs5UnpadLen => 0x12
  | .pkcs5ChkLen => 0x13
  | .rc4Init => 0x20
  | .rc4Enc => 0x21
  | .rc4Dec => 0x22
  | .aesInit _ => 0x30
  | .aesEnc => 0x31
  | .aesDec => 0x32
  | .aesIsInit => 0x33
  | .bfInit => 0x40
  | .bfEnc => 0x41
  | .bfDec => 0x42

/-- The MODE bits of each command: AES.INIT's immediate, 0 in every other command (30 R120). -/
def modeOf : Instr → BitVec 2
  | .pkcs5PadLen => 0
  | .pkcs5Pad => 0
  | .pkcs5UnpadLen => 0
  | .pkcs5ChkLen => 0
  | .rc4Init => 0
  | .rc4Enc => 0
  | .rc4Dec => 0
  | .aesInit mode => mode.bits
  | .aesEnc => 0
  | .aesDec => 0
  | .aesIsInit => 0
  | .bfInit => 0
  | .bfEnc => 0
  | .bfDec => 0

/-- The command word: `ZERO ++ MODE ++ OPC` (30 R120, R126). -/
def encode (i : Instr) : Word := (0 : BitVec 22) ++ modeOf i ++ opcOf i

/-- The command the decoder reads from a word given as a number, `nbits` of whose bits the opcode table lists and whose
other bits are 0 (30 R120: the one format is 32 bits). -/
def decodeTableWord (nbits w : Nat) : Option Instr :=
  match decode (BitVec.ofNat 32 (w % 2 ^ nbits)) with
  | .ok i => some i
  | .error _ => none

end Sys2Proof
end

