-- ==== Sys2Proof/Machine/Ops.lean ====
section
/-! DEFINITION. The named operations over memory and registers: reading and writing bytes of MEM (spec/20_memory.md R90,
R93), the result register (10_state.md R22), raising a fault (60_exceptions.md R270 to R273) and the reset event
(70_reset_and_hazards.md R300). -/

namespace Sys2Proof.Machine

open Sys2Proof

/-- The outcome of a step of CORE. -/
abbrev StepOutcome := Host.Outcome State Fault Refusal

/-- DESIGN CHOICE (unsafe, log entry 4): what a byte of MEM that the list does not mention reads as. -/
def unlistedByte : Byte := 0

/-- The byte `MEM[a]` (20 R90). -/
def Memory.read : Memory → Nat → Byte
  | [], _ => unlistedByte
  | (b, v) :: rest, a => if a = b then v else Memory.read rest a

/-- The memory without an entry for address `a`, which then reads as an unlisted byte. -/
def Memory.erase : Memory → Nat → Memory
  | [], _ => []
  | (b, v) :: rest, a => if a = b then Memory.erase rest a else (b, v) :: Memory.erase rest a

/-- The memory with the entry `(a, v)` at its place in the rising order. -/
def Memory.insert : Memory → Nat → Byte → Memory
  | [], a, v => [(a, v)]
  | (b, u) :: rest, a, v =>
    if a < b then (a, v) :: (b, u) :: rest
    else if a = b then (a, v) :: rest
    else (b, u) :: Memory.insert rest a v

/-- `MEM[a] <- v` (20 R90); writing the value an unlisted byte reads as removes the entry. -/
def Memory.write (m : Memory) (a : Nat) (v : Byte) : Memory :=
  if v = unlistedByte then Memory.erase m a else Memory.insert m a v

/-- The canonical form: addresses strictly rising, no entry equal to what an unlisted address reads as. -/
def Memory.wf : Memory → Bool
  | [] => true
  | [(_, v)] => decide (v ≠ unlistedByte)
  | (a, v) :: (b, u) :: rest => decide (v ≠ unlistedByte) && decide (a < b) && Memory.wf ((b, u) :: rest)

/-- Every listed byte lies below `n` (20 R90: `MEM[0 .. MEM_SIZE-1]`). -/
def Memory.below (m : Memory) (n : Nat) : Bool := m.all fun c => decide (c.1 < n)

/-- `MemWrite(a, |vs|, vs)`: the bytes written lowest address first (00 R10). -/
def Memory.writeBytes : Memory → Nat → List Byte → Memory
  | m, _, [] => m
  | m, a, v :: vs => Memory.writeBytes (m.write a v) (a + 1) vs

/-- `be32(MemRead(a, 4))` (20 R93). -/
def Memory.readWord (m : Memory) (a : Nat) : Word :=
  be32 (m.read a) (m.read (a + 1)) (m.read (a + 2)) (m.read (a + 3))

/-- `MemWrite(a, 4, bytes_be(w))` (20 R93). -/
def Memory.writeWord (m : Memory) (a : Nat) (w : Word) : Memory := m.writeBytes a (bytesBe w)

/-- `RES <- v` (10 R22). -/
def State.setRes (s : State) (v : Word) : State := { s with res := v }

/-- `MEM <- m` (20 R99). -/
def State.setMem (s : State) (m : Memory) : State := { s with mem := m }

/-- The RC4 context becomes `c`, with `RC4.INIT = 1` (41 R170). -/
def State.setRc4 (s : State) (c : Rc4Context) : State := { s with rc4 := some c }

/-- The AES context becomes `c`; absent is `AES.Mode = 0` (42 R190). -/
def State.setAes (s : State) (c : Option AesContext) : State := { s with aes := c }

/-- The BF context becomes `c`; absent is `BF.INIT = 0` (44 R247). -/
def State.setBf (s : State) (c : Option BfContext) : State := { s with bf := c }

/-- The fault causes (60 R270). -/
inductive FaultCode where
  | illegalCmd | uninit | nullPtr | length | keyLen | blockSize | overflow | bounds | overlap | noIv | padValue
  deriving DecidableEq, Repr

/-- The code ERR holds for each cause (60 R270). -/
def FaultCode.byte : FaultCode → Byte
  | .illegalCmd => 0x01
  | .uninit => 0x02
  | .nullPtr => 0x03
  | .length => 0x04
  | .keyLen => 0x05
  | .blockSize => 0x06
  | .overflow => 0x07
  | .bounds => 0x08
  | .overlap => 0x09
  | .noIv => 0x0a
  | .padValue => 0x0b

/-- Fault entry (60 R272): `FAULT <- 1; ERR <- code; FOPC <- opc`, and nothing else. -/
def State.enterFault (s : State) (code : FaultCode) (opc : Byte) : State :=
  { s with fault := true, err := code.byte, fopc := opc }

/-- `raise Fault(code)` in a command whose OPC byte is `opc`: the command ends with fault entry, a NEXT state (60 R272, R273).
There is no return from a fault but reset (60 R278). -/
def raise (code : FaultCode) (opc : Byte) (s : State) : StepOutcome := .next (s.enterFault code opc)

/-- A command that completes. -/
def done (s : State) : StepOutcome := .next s

/-- The reset event (70 R300, R301): every register, flag and context to its value of 10 R37; MEM is unchanged, and so are the
model's own fields. -/
def State.resetEvent (s : State) : State := State.afterReset s.params s.mem s.host

end Sys2Proof.Machine
end

