-- ==== Sys2Proof/Machine/Operands.lean ====
section
/-! DEFINITION. The operand checks and operand forms of the commands: null addresses, ranges, overlap, block loads and stores
(spec/20_memory.md R91 to R98; 43_aes_cipher.md R214, R215; 44_blowfish.md R249, R250). -/

namespace Sys2Proof.Machine

open Sys2Proof

/-- `NULL` is address 0 (20 R91). -/
def isNull (a : Word) : Bool := a == 0

/-- `InRange(a, n) = (a + n <= MEM_SIZE)` over the naturals (20 R92). -/
def State.inRange (s : State) (a : Word) (n : Nat) : Bool := decide (a.toNat + n ≤ s.params.memSize)

/-- Destination `(d, n)` and source `(a, n)` intersect without being equal (20 R97). -/
def overlaps (d a : Word) (n : Nat) : Bool :=
  decide (d ≠ a) && decide (d.toNat < a.toNat + n) && decide (a.toNat < d.toNat + n)

/-- A length a block cipher refuses: zero, or no multiple of the block size (43 R216, 44 R251). -/
def badLength (n : Word) (blockBytes : Nat) : Bool := n == 0 || decide (n.toNat % blockBytes ≠ 0)

/-- The block size operand of PKCS5 is in `1 .. 255` (40 R150). -/
def blockSizeOk (b : Word) : Bool := decide (1 ≤ b.toNat) && decide (b.toNat ≤ 255)

/-- The first fault, in the order of 60 R275, that the buffer operands of a block command raise: null addresses, the length,
the ranges, the overlap (43 R216, 44 R251); destination A0, source A1, length A2. -/
def State.blockFault (s : State) (blockBytes : Nat) : Option FaultCode :=
  if isNull s.a0 || isNull s.a1 then some .nullPtr
  else if badLength s.a2 blockBytes then some .length
  else if !s.inRange s.a0 s.a2.toNat || !s.inRange s.a1 s.a2.toNat then some .bounds
  else if overlaps s.a0 s.a1 s.a2.toNat then some .overlap
  else none

/-- AES block load: block n of the buffer at `a` (43 R214). -/
def Memory.readBlock (m : Memory) (a n : Nat) : Block where
  w0 := m.readWord (a + 16 * n)
  w1 := m.readWord (a + 16 * n + 4)
  w2 := m.readWord (a + 16 * n + 8)
  w3 := m.readWord (a + 16 * n + 12)

/-- AES block store: block n of the buffer at `d` (43 R215). -/
def Memory.writeBlock (m : Memory) (d n : Nat) (y : Block) : Memory :=
  (((m.writeWord (d + 16 * n) y.w0).writeWord (d + 16 * n + 4) y.w1).writeWord (d + 16 * n + 8) y.w2).writeWord
    (d + 16 * n + 12) y.w3

/-- Blowfish block load: the halves L and R of block n of the buffer at `a` (44 R249). -/
def Memory.readHalves (m : Memory) (a n : Nat) : Word × Word := (m.readWord (a + 8 * n), m.readWord (a + 8 * n + 4))

/-- Blowfish block store: block n of the buffer at `d` (44 R250). -/
def Memory.writeHalves (m : Memory) (d n : Nat) (y : Word × Word) : Memory :=
  (m.writeWord (d + 8 * n) y.1).writeWord (d + 8 * n + 4) y.2

end Sys2Proof.Machine
end

