-- ==== Sys2Proof/Machine/AesKey.lean ====
section
/-! DEFINITION. The AES context: the key schedules, AES.INIT and AES.ISINIT (spec/42_aes_key_schedule.md R190 to R198). -/

namespace Sys2Proof.Machine

open Sys2Proof

/-- `Nk`, the key length in words: 4, 6 or 8 (42 R190). -/
def AesRounds.nk : AesRounds → Nat
  | .r10 => 4
  | .r12 => 6
  | .r14 => 8

/-- `AES_NR(keyLength)`: 16 gives 10, 24 gives 12, 32 gives 14, no other length is a key length (00 R6, 42 R190). -/
def AesRounds.ofKeyLength (n : Nat) : Option AesRounds :=
  if n = 16 then some .r10 else if n = 24 then some .r12 else if n = 32 then some .r14 else none

theorem AesRounds.nk_pos (nr : AesRounds) : 0 < nr.nk := by cases nr <;> decide

theorem AesRounds.nk_add_rest (nr : AesRounds) : nr.nk + (4 * (nr.val + 1) - nr.nk) = 4 * (nr.val + 1) := by
  cases nr <;> decide

theorem AesRounds.rcon_bound (nr : AesRounds) {k : Nat} (hk : k < 4 * (nr.val + 1) - nr.nk) :
    (nr.nk + k) / nr.nk - 1 < 10 := by
  cases nr <;> simp only [AesRounds.nk, AesRounds.val] at * <;> omega

/-- `RotWord(t) = rotl32(t, 8)` (42 R193). -/
def rotWord (t : Word) : Word := rotl32 t 8

/-- `SubWord(t)`: each byte through the S-box, by lookups in Te4 (42 R193). -/
def subWord (t : Word) : Word :=
  (te4 (byte0 t) &&& 0xff000000) ^^^ (te4 (byte1 t) &&& 0x00ff0000) ^^^ (te4 (byte2 t) &&& 0x0000ff00)
    ^^^ (te4 (byte3 t) &&& 0x000000ff)

/-- What the key expansion xors into `W[i - Nk]` to get `W[i]`, from `W[i-1]` (42 R192). -/
def expandTerm (nk i : Nat) (prev rc : Word) : Word :=
  if i % nk = 0 then subWord (rotWord prev) ^^^ rc
  else if nk = 8 ∧ i % nk = 4 then subWord prev
  else prev

/-- The first `Nk + k` words of the expansion of a key of `Nk` words, for k up to the whole schedule (42 R192): word
`i = Nk + k` is `W[i - Nk] xor expandTerm`. -/
def expandWords (nr : AesRounds) (key : Vector Word nr.nk) :
    (k : Nat) → k ≤ 4 * (nr.val + 1) - nr.nk → Vector Word (nr.nk + k)
  | 0, _ => key
  | k + 1, hk =>
    let w := expandWords nr key k (Nat.le_of_succ_le hk)
    have := nr.nk_pos
    have := nr.rcon_bound (Nat.lt_of_succ_le hk)
    w.push (w[k] ^^^ expandTerm nr.nk (nr.nk + k) w[nr.nk + k - 1] (rcon[(nr.nk + k) / nr.nk - 1]))

/-- `KeyExpand(key, Nk, Nr)`: the `4*(Nr+1)` forward round-key words (42 R192). -/
def keyExpand (nr : AesRounds) (key : Vector Word nr.nk) : Vector Word (4 * (nr.val + 1)) :=
  (expandWords nr key (4 * (nr.val + 1) - nr.nk) (Nat.le_refl _)).cast nr.nk_add_rest

/-- `InvMixWord(x)`: the inverse column mix of one word by table lookups (42 R195). -/
def invMixWord (x : Word) : Word :=
  td0 (byte3 (te4 (byte0 x))) ^^^ td1 (byte3 (te4 (byte1 x))) ^^^ td2 (byte3 (te4 (byte2 x)))
    ^^^ td3 (byte3 (te4 (byte3 x)))

/-- Word `k = 4*r + c` of `InvKeySchedule(Ek, Nr)`: word c of round key `Nr - r`, mixed when `0 < r < Nr` (42 R194). -/
def invScheduleWord {n : Nat} (ek : Vector Word (4 * (n + 1))) (k : Nat) (hk : k < 4 * (n + 1)) : Word :=
  let v := ek[4 * (n - k / 4) + k % 4]'(by omega)
  if 0 < k / 4 ∧ k / 4 < n then invMixWord v else v

/-- `InvKeySchedule(Ek, Nr)`: the inverse-cipher round keys (42 R194). -/
def invKeySchedule {n : Nat} (ek : Vector Word (4 * (n + 1))) : Vector Word (4 * (n + 1)) :=
  Vector.ofFn fun k => invScheduleWord ek k.val k.isLt

/-- The key words: word i is `be32` of key bytes 4i to 4i+3 (42 R191). -/
def keyWords (m : Memory) (key : Nat) (nk : Nat) : Vector Word nk := Vector.ofFn fun i => m.readWord (key + 4 * i.val)

/-- The IV words: the packing of a data block (42 R196). -/
def loadIv (m : Memory) (iv : Nat) : Block := m.readBlock iv 0

/-- The context a successful AES.INIT builds: schedules of the key at `key`, the IV where one is given (42 R190). -/
def aesContext (m : Memory) (iv key : Word) (nr : AesRounds) (mode : AesMode) : AesContext where
  nr := nr
  ek := keyExpand nr (keyWords m key.toNat nr.nk)
  dk := invKeySchedule (keyExpand nr (keyWords m key.toNat nr.nk))
  iv := if isNull iv then none else some (loadIv m iv.toNat)
  mode := mode

/-- The cipher mode a MODE field asks for; 0 and 3 are refused (42 R190, 30 R122). -/
def cipherModeOf : ModeField → Option AesMode
  | .modeNone => none
  | .ecb => some .ecb
  | .cbc => some .cbc
  | .reserved => none

/-- The recoverable failure of AES.INIT: the unit is uninitialized, `RES <- 0`, no fault (42 R190, 60 R271). -/
def aesInitFails (s : State) : State := (s.setAes none).setRes 0

/-- AES.INIT: IV address A0 or NULL, key address A1, key length A2 (42 R190). -/
def execAesInit (mode : ModeField) (s : State) : StepOutcome :=
  match cipherModeOf mode, AesRounds.ofKeyLength s.a2.toNat with
  | some m, some nr =>
    if isNull s.a1 then done (aesInitFails s)
    else if !s.inRange s.a1 s.a2.toNat then raise .bounds 0x30 s
    else if !isNull s.a0 && !s.inRange s.a0 16 then raise .bounds 0x30 s
    else done ((s.setAes (some (aesContext s.mem s.a0 s.a1 nr m))).setRes 1)
  | _, _ => done (aesInitFails s)

/-- AES.ISINIT: RES is 1 when `AES.Mode != 0`, else 0; it never faults (42 R197). -/
def execAesIsInit (s : State) : StepOutcome := done (s.setRes (if s.aesInit then 1 else 0))

end Sys2Proof.Machine
end

