-- ==== Sys2Proof/Machine/AesCipher.lean ====
section
/-! DEFINITION. The AES round engine and the ECB and CBC modes: AES.ENC and AES.DEC (spec/43_aes_cipher.md R210 to R222). -/

namespace Sys2Proof.Machine

open Sys2Proof

/-- The word-by-word xor of two blocks: round key addition and CBC chaining (43 R211, R216). -/
def Block.xor (x y : Block) : Block where
  w0 := x.w0 ^^^ y.w0
  w1 := x.w1 ^^^ y.w1
  w2 := x.w2 ^^^ y.w2
  w3 := x.w3 ^^^ y.w3

/-- Round key r of a schedule: words `4*r .. 4*r+3` (42 R192). -/
def roundKey {n : Nat} (k : Vector Word (4 * (n + 1))) (r : Nat) (hr : r ≤ n) : Block where
  w0 := k[4 * r]
  w1 := k[4 * r + 1]
  w2 := k[4 * r + 2]
  w3 := k[4 * r + 3]

/-- One column of a full forward round, before the round key (43 R211). -/
def encColumn (a b c d : Word) : Word := te0 (byte0 a) ^^^ te1 (byte1 b) ^^^ te2 (byte2 c) ^^^ te3 (byte3 d)

/-- A full forward round: every column from the old state (43 R211). -/
def encRound (s k : Block) : Block :=
  Block.xor ⟨encColumn s.w0 s.w1 s.w2 s.w3, encColumn s.w1 s.w2 s.w3 s.w0, encColumn s.w2 s.w3 s.w0 s.w1,
    encColumn s.w3 s.w0 s.w1 s.w2⟩ k

/-- One column of the final forward round, before the round key: Te4 under the four byte masks (43 R211). -/
def encFinalColumn (a b c d : Word) : Word :=
  (te4 (byte0 a) &&& 0xff000000) ^^^ (te4 (byte1 b) &&& 0x00ff0000) ^^^ (te4 (byte2 c) &&& 0x0000ff00)
    ^^^ (te4 (byte3 d) &&& 0x000000ff)

/-- The final forward round (43 R211). -/
def encFinalRound (s k : Block) : Block :=
  Block.xor ⟨encFinalColumn s.w0 s.w1 s.w2 s.w3, encFinalColumn s.w1 s.w2 s.w3 s.w0, encFinalColumn s.w2 s.w3 s.w0 s.w1,
    encFinalColumn s.w3 s.w0 s.w1 s.w2⟩ k

/-- `EncryptBlock(Ek, Nr, x)`: round key 0, `Nr - 1` full rounds, the final round (43 R211). -/
def encryptBlock {n : Nat} (ek : Vector Word (4 * (n + 1))) (x : Block) : Block :=
  encFinalRound
    (Nat.fold (n - 1) (fun r hr s => encRound s (roundKey ek (r + 1) (by omega))) (x.xor (roundKey ek 0 (Nat.zero_le n))))
    (roundKey ek n (Nat.le_refl n))

/-- One column of a full inverse round, before the round key (43 R212). -/
def decColumn (a b c d : Word) : Word := td0 (byte0 a) ^^^ td1 (byte1 b) ^^^ td2 (byte2 c) ^^^ td3 (byte3 d)

/-- A full inverse round: word c takes its bytes from words c, c+3, c+2, c+1 (43 R212). -/
def decRound (s k : Block) : Block :=
  Block.xor ⟨decColumn s.w0 s.w3 s.w2 s.w1, decColumn s.w1 s.w0 s.w3 s.w2, decColumn s.w2 s.w1 s.w0 s.w3,
    decColumn s.w3 s.w2 s.w1 s.w0⟩ k

/-- One column of the final inverse round, before the round key: Td4 under the four byte masks (43 R212). -/
def decFinalColumn (a b c d : Word) : Word :=
  (td4 (byte0 a) &&& 0xff000000) ^^^ (td4 (byte1 b) &&& 0x00ff0000) ^^^ (td4 (byte2 c) &&& 0x0000ff00)
    ^^^ (td4 (byte3 d) &&& 0x000000ff)

/-- The final inverse round (43 R212). -/
def decFinalRound (s k : Block) : Block :=
  Block.xor ⟨decFinalColumn s.w0 s.w3 s.w2 s.w1, decFinalColumn s.w1 s.w0 s.w3 s.w2, decFinalColumn s.w2 s.w1 s.w0 s.w3,
    decFinalColumn s.w3 s.w2 s.w1 s.w0⟩ k

/-- `DecryptBlock(Dk, Nr, x)` (43 R212). -/
def decryptBlock {n : Nat} (dk : Vector Word (4 * (n + 1))) (x : Block) : Block :=
  decFinalRound
    (Nat.fold (n - 1) (fun r hr s => decRound s (roundKey dk (r + 1) (by omega))) (x.xor (roundKey dk 0 (Nat.zero_le n))))
    (roundKey dk n (Nat.le_refl n))

/-- The chaining value of a command: absent in ECB, the working IV in CBC (43 R216, R218, R219). -/
def chainXor (x : Block) : Option Block → Block
  | none => x
  | some v => x.xor v

/-- The working IV after a block: none stays none (ECB), in CBC it becomes the ciphertext block (43 R216, R217). -/
def chainNext (cipher : Block) (chain : Option Block) : Option Block := chain.map fun _ => cipher

/-- Block n of AES.ENC's loop (43 R216). -/
def aesEncStep (c : AesContext) (dst src n : Nat) (mv : Memory × Option Block) : Memory × Option Block :=
  let y := encryptBlock c.ek (chainXor (mv.1.readBlock src n) mv.2)
  (mv.1.writeBlock dst n y, chainNext y mv.2)

/-- Block n of AES.DEC's loop: the ciphertext block is captured before anything is written (43 R217). -/
def aesDecStep (c : AesContext) (dst src n : Nat) (mv : Memory × Option Block) : Memory × Option Block :=
  let x := mv.1.readBlock src n
  let y := chainXor (decryptBlock c.dk x) mv.2
  (mv.1.writeBlock dst n y, chainNext x mv.2)

/-- The memory after AES.ENC's `count` blocks, in ascending order (43 R216, 20 R100). -/
def aesEncMem (c : AesContext) (chain : Option Block) (m : Memory) (dst src count : Nat) : Memory :=
  (Nat.fold count (fun n _ mv => aesEncStep c dst src n mv) (m, chain)).1

/-- The memory after AES.DEC's `count` blocks, in ascending order (43 R217, 20 R100). -/
def aesDecMem (c : AesContext) (chain : Option Block) (m : Memory) (dst src count : Nat) : Memory :=
  (Nat.fold count (fun n _ mv => aesDecStep c dst src n mv) (m, chain)).1

/-- The chaining value a command of this context starts from: none in ECB, a copy of the stored IV in CBC; `none` outside is
a CBC context without an IV (43 R216, R219). -/
def AesContext.startChain (c : AesContext) : Option (Option Block) :=
  match c.mode, c.iv with
  | .ecb, _ => some none
  | .cbc, some v => some (some v)
  | .cbc, none => none

/-- The frame of AES.ENC and AES.DEC: the six checks in order, then the blocks, then `RES <- A2`; the AES context is not
written (43 R216, R217, R221). -/
def aesCommand (opc : Byte) (blocks : AesContext → Option Block → Memory → Nat → Nat → Nat → Memory) (s : State) :
    StepOutcome :=
  match s.aes with
  | none => raise .uninit opc s
  | some c =>
    match s.blockFault 16 with
    | some code => raise code opc s
    | none =>
      match c.startChain with
      | none => raise .noIv opc s
      | some chain =>
        done ((s.setMem (blocks c chain s.mem s.a0.toNat s.a1.toNat (s.a2.toNat / 16))).setRes s.a2)

/-- AES.ENC (43 R216). -/
def execAesEnc (s : State) : StepOutcome := aesCommand 0x31 aesEncMem s

/-- AES.DEC (43 R217). -/
def execAesDec (s : State) : StepOutcome := aesCommand 0x32 aesDecMem s

end Sys2Proof.Machine
end

