-- ==== Sys2Proof/Machine/Blowfish.lean ====
section
/-! DEFINITION. The Blowfish Feistel encoder and decoder and its subkey scheduler (spec/44_blowfish.md R240 to R254). -/

namespace Sys2Proof.Machine

open Sys2Proof

/-- The round function `F(x) = ((S[0][byte_0] +32 S[1][byte_1]) xor S[2][byte_2]) +32 S[3][byte_3]` (44 R241). -/
def bfF (s : Vector (Vector Word 256) 4) (x : Word) : Word :=
  ((entry s[0] (byte0 x) + entry s[1] (byte1 x)) ^^^ entry s[2] (byte2 x)) + entry s[3] (byte3 x)

/-- One round: `L = L xor k; R = R xor F(L); swap(L, R)` (44 R242). -/
def bfRound (s : Vector (Vector Word 256) 4) (k : Word) (lr : Word × Word) : Word × Word :=
  (lr.2 ^^^ bfF s (lr.1 ^^^ k), lr.1 ^^^ k)

/-- After the rounds: undo the last swap, then `R = R xor kr; L = L xor kl` (44 R242). -/
def bfFinish (kr kl : Word) (lr : Word × Word) : Word × Word := (lr.2 ^^^ kl, lr.1 ^^^ kr)

/-- `BF_EncryptBlock(P, S, L, R)`: `P[0]` to `P[15]` in the rounds, then `P[16]` on R and `P[17]` on L (44 R242). -/
def bfEncryptBlock (c : BfContext) (lr : Word × Word) : Word × Word :=
  bfFinish c.p[16] c.p[17] (Nat.fold 16 (fun i _ lr => bfRound c.s c.p[i] lr) lr)

/-- `BF_DecryptBlock(P, S, L, R)`: `P[17]` down to `P[2]` in the rounds, then `P[1]` on R and `P[0]` on L (44 R243). -/
def bfDecryptBlock (c : BfContext) (lr : Word × Word) : Word × Word :=
  bfFinish c.p[1] c.p[0] (Nat.fold 16 (fun i _ lr => bfRound c.s c.p[17 - i] lr) lr)

/-- Scheduler step 1: the constants (44 R244). -/
def bfConstants : BfContext := { p := bfPInit, s := bfSInit }

/-- The word step 2 xors into `P[i]`: key bytes `4i .. 4i+3`, taken cyclically, first byte most significant (44 R245). -/
def bfKeyWord (key : Nat → Byte) (len i : Nat) : Word :=
  be32 (key (4 * i % len)) (key ((4 * i + 1) % len)) (key ((4 * i + 2) % len)) (key ((4 * i + 3) % len))

/-- Scheduler step 2: the key xored cyclically into the P-array (44 R245). -/
def bfKeyXor (key : Nat → Byte) (len : Nat) (c : BfContext) : BfContext :=
  { c with p := Vector.ofFn fun i => c.p[i] ^^^ bfKeyWord key len i.val }

/-- Iteration `i = 2k` of step 3 over the P-array: the running block is encrypted with the context as it is now, and written
(44 R246). -/
def bfBootP (k : Nat) (hk : k < 9) (cl : BfContext × (Word × Word)) : BfContext × (Word × Word) :=
  let y := bfEncryptBlock cl.1 cl.2
  ({ cl.1 with p := (cl.1.p.set (2 * k) y.1).set (2 * k + 1) y.2 }, y)

/-- Iteration `i = 2k` of step 3 over S-box b (44 R246). -/
def bfBootS (b : Nat) (hb : b < 4) (k : Nat) (hk : k < 128) (cl : BfContext × (Word × Word)) : BfContext × (Word × Word) :=
  let y := bfEncryptBlock cl.1 cl.2
  ({ cl.1 with s := cl.1.s.set b ((cl.1.s[b].set (2 * k) y.1).set (2 * k + 1) y.2) }, y)

/-- Scheduler step 3, the bootstrap: 9 encryptions over the P-array, then 128 over each S-box, left to right, each on the
output of the one before (44 R246, 70 R311). -/
def bfBootstrap (c : BfContext) : BfContext :=
  (Nat.fold 4 (fun b hb cl => Nat.fold 128 (fun k hk cl => bfBootS b hb k hk cl) cl)
    (Nat.fold 9 (fun k hk cl => bfBootP k hk cl) (c, (0, 0)))).1

/-- The scheduled context of a key: constants, key xor, bootstrap (44 R247). -/
def bfSchedule (key : Nat → Byte) (len : Nat) : BfContext := bfBootstrap (bfKeyXor key len bfConstants)

/-- BF.INIT: key address A0, key length A1 (44 R247). Lengths 0 and above 56 fail recoverably: the unit is uninitialized and
`RES <- 0`. -/
def execBfInit (s : State) : StepOutcome :=
  if isNull s.a0 then raise .nullPtr 0x40 s
  else if s.a1 == 0 || decide (56 < s.a1.toNat) then done ((s.setBf none).setRes 0)
  else if !s.inRange s.a0 s.a1.toNat then raise .bounds 0x40 s
  else done ((s.setBf (some (bfSchedule (fun k => s.mem.read (s.a0.toNat + k)) s.a1.toNat))).setRes 1)

/-- Block n of the loop of 44 R251: load, transform, store. -/
def bfStep (f : Word × Word → Word × Word) (dst src n : Nat) (m : Memory) : Memory :=
  m.writeHalves dst n (f (m.readHalves src n))

/-- The memory after `count` blocks, in ascending order (44 R251, 20 R100). -/
def bfMem (f : Word × Word → Word × Word) (m : Memory) (dst src count : Nat) : Memory :=
  Nat.fold count (fun n _ m => bfStep f dst src n m) m

/-- The frame of BF.ENC and BF.DEC: the five checks in order, then the blocks; RES and the BF context are not written
(44 R251, R252). -/
def bfCommand (opc : Byte) (f : BfContext → Word × Word → Word × Word) (s : State) : StepOutcome :=
  match s.bf with
  | none => raise .uninit opc s
  | some c =>
    match s.blockFault 8 with
    | some code => raise code opc s
    | none => done (s.setMem (bfMem (f c) s.mem s.a0.toNat s.a1.toNat (s.a2.toNat / 8)))

/-- BF.ENC (44 R251). -/
def execBfEnc (s : State) : StepOutcome := bfCommand 0x41 bfEncryptBlock s

/-- BF.DEC (44 R252). -/
def execBfDec (s : State) : StepOutcome := bfCommand 0x42 bfDecryptBlock s

end Sys2Proof.Machine
end

