-- ==== Sys2Proof/Machine/Pkcs5.lean ====
section
/-! DEFINITION. The PKCS5 padding unit (spec/40_pkcs5.md R150 to R156). -/

namespace Sys2Proof.Machine

open Sys2Proof

/-- `PadLen(length, blockSize) = length + (blockSize - (length mod blockSize))` over the naturals (40 R151). -/
def padLen (length blockSize : Nat) : Nat := length + (blockSize - length % blockSize)

/-- The padded length does not fit 32 bits (40 R151). -/
def padOverflows (p : Nat) : Bool := decide (0xffffffff < p)

/-- The memory after `for k in A1 .. p-1: MEM[A0 + k] <- v` with `v = p - A1` (40 R152). -/
def padBytes (m : Memory) (data length p : Nat) : Memory :=
  m.writeBytes (data + length) (List.replicate (p - length) (BitVec.ofNat 8 (p - length)))

/-- PKCS5.PADLEN: RES is the padded length of A0 for the block size A1 (40 R151). -/
def execPkcs5PadLen (s : State) : StepOutcome :=
  if !blockSizeOk s.a1 then raise .blockSize 0x10 s
  else if padOverflows (padLen s.a0.toNat s.a1.toNat) then raise .overflow 0x10 s
  else done (s.setRes (BitVec.ofNat 32 (padLen s.a0.toNat s.a1.toNat)))

/-- PKCS5.PAD: the pad bytes after the A1 data bytes at A0, block size A2; RES is left (40 R152). -/
def execPkcs5Pad (s : State) : StepOutcome :=
  if isNull s.a0 then raise .nullPtr 0x11 s
  else if !blockSizeOk s.a2 then raise .blockSize 0x11 s
  else if padOverflows (padLen s.a1.toNat s.a2.toNat) then raise .overflow 0x11 s
  else if !s.inRange s.a0 (padLen s.a1.toNat s.a2.toNat) then raise .bounds 0x11 s
  else done (s.setMem (padBytes s.mem s.a0.toNat s.a1.toNat (padLen s.a1.toNat s.a2.toNat)))

/-- The last byte of a padded buffer, the pad count (40 R153). -/
def lastByte (m : Memory) (data paddedLength : Nat) : Byte := m.read (data + paddedLength - 1)

/-- PKCS5.UNPADLEN: RES is A1 less the last byte of the buffer; no other pad byte is looked at (40 R153). -/
def execPkcs5UnpadLen (s : State) : StepOutcome :=
  if isNull s.a0 then raise .nullPtr 0x12 s
  else if s.a1 == 0 then raise .length 0x12 s
  else if !s.inRange s.a0 s.a1.toNat then raise .bounds 0x12 s
  else if s.a1.toNat < (lastByte s.mem s.a0.toNat s.a1.toNat).toNat then raise .padValue 0x12 s
  else done (s.setRes (s.a1 - (lastByte s.mem s.a0.toNat s.a1.toNat).zeroExtend 32))

/-- PKCS5.CHKLEN: RES is 1 when A0 is a multiple of A1, else 0 (40 R154). -/
def execPkcs5ChkLen (s : State) : StepOutcome :=
  if !blockSizeOk s.a1 then raise .blockSize 0x13 s
  else done (s.setRes (if s.a0.toNat % s.a1.toNat = 0 then 1 else 0))

end Sys2Proof.Machine
end

