-- ==== Sys2Proof/Machine/Rc4.lean ====
section
/-! DEFINITION. The RC4 permutation state machine (spec/41_rc4.md R170 to R178). -/

namespace Sys2Proof.Machine

open Sys2Proof

/-- `swap(S[i], S[j])` (00 R10, 41 R172). -/
def swapCells (t : Vector Byte 256) (i j : Byte) : Vector Byte 256 := t.swap i.toNat j.toNat i.isLt j.isLt

/-- The identity permutation `S[i] = i` (41 R172). -/
def identityCells : Vector Byte 256 := Vector.ofFn fun i => BitVec.ofNat 8 i.val

/-- Step i of the key scheduling: `j = (j +8 S[i]) +8 key(i mod length); swap(S[i], S[j])` (41 R172). -/
def ksaStep (key : Nat → Byte) (length i : Nat) (sj : Vector Byte 256 × Byte) : Vector Byte 256 × Byte :=
  let i8 : Byte := BitVec.ofNat 8 i
  let j := sj.2 + entry sj.1 i8 + key (i % length)
  (swapCells sj.1 i8 j, j)

/-- `KSA(key, length)`: the 256 steps from the identity and `j = 0` (41 R172). -/
def ksa (key : Nat → Byte) (length : Nat) : Vector Byte 256 :=
  (Nat.fold 256 (fun i _ sj => ksaStep key length i sj) (identityCells, 0)).1

/-- `PRGA_step`: the context after one step, and the keystream byte read after the swap (41 R174). -/
def prgaStep (c : Rc4Context) : Rc4Context × Byte :=
  let i := c.i + 1
  let j := c.j + entry c.s i
  let t := swapCells c.s i j
  ({ s := t, i := i, j := j }, entry t (entry t i + entry t j))

/-- Byte k of the loop of 41 R173: `MEM[A0 + k] <- MEM[A0 + k] xor z`. -/
def rc4CryptByte (data k : Nat) (cm : Rc4Context × Memory) : Rc4Context × Memory :=
  let r := prgaStep cm.1
  (r.1, cm.2.write (data + k) (cm.2.read (data + k) ^^^ r.2))

/-- The loop `for k in 0 .. length-1` of 41 R173, bytes in ascending order (20 R100). -/
def rc4Crypt (c : Rc4Context) (m : Memory) (data length : Nat) : Rc4Context × Memory :=
  Nat.fold length (fun k _ cm => rc4CryptByte data k cm) (c, m)

/-- Where the loop's indices start: from the context, or from 0 when the indices do not persist (41 R173, R176). -/
def rc4Start (p : Params) (c : Rc4Context) : Rc4Context :=
  if p.rc4IjPersist then c else { c with i := 0, j := 0 }

/-- What RC4.ENC and RC4.DEC both do (41 R173, R175), for the command whose OPC byte is `opc`. -/
def rc4Command (opc : Byte) (s : State) : StepOutcome :=
  match s.rc4 with
  | none => raise .uninit opc s
  | some c =>
    if isNull s.a0 then raise .nullPtr opc s
    else if !s.inRange s.a0 s.a1.toNat then raise .bounds opc s
    else
      let r := rc4Crypt (rc4Start s.params c) s.mem s.a0.toNat s.a1.toNat
      done (((s.setMem r.2).setRc4 r.1).setRes s.a1)

/-- RC4.INIT: keys the context with the A1 bytes at A0; RES is left (41 R171). -/
def execRc4Init (s : State) : StepOutcome :=
  if isNull s.a0 then raise .nullPtr 0x20 s
  else if s.a1 == 0 then raise .keyLen 0x20 s
  else if !s.inRange s.a0 s.a1.toNat then raise .bounds 0x20 s
  else done (s.setRc4 { s := ksa (fun k => s.mem.read (s.a0.toNat + k)) s.a1.toNat, i := 0, j := 0 })

/-- RC4.ENC (41 R173). -/
def execRc4Enc (s : State) : StepOutcome := rc4Command 0x21 s

/-- RC4.DEC: the same operation as RC4.ENC (41 R175). -/
def execRc4Dec (s : State) : StepOutcome := rc4Command 0x22 s

end Sys2Proof.Machine
end

