-- ==== Sys2Proof/Machine/Dispatch.lean ====
section
/-! DEFINITION. One arm per command: the last line of spec/30_encoding.md R121, "execute the command named by opc". It is
reached only while FAULT = 0 (60_exceptions.md R274): see `Machine/Host.lean`. -/

namespace Sys2Proof.Machine

open Sys2Proof

def exec (i : Instr) (s : State) : Host.Outcome State Fault Refusal :=
  match i with
  | .pkcs5PadLen => Sys2Proof.Machine.execPkcs5PadLen s
  | .pkcs5Pad => Sys2Proof.Machine.execPkcs5Pad s
  | .pkcs5UnpadLen => Sys2Proof.Machine.execPkcs5UnpadLen s
  | .pkcs5ChkLen => Sys2Proof.Machine.execPkcs5ChkLen s
  | .rc4Init => Sys2Proof.Machine.execRc4Init s
  | .rc4Enc => Sys2Proof.Machine.execRc4Enc s
  | .rc4Dec => Sys2Proof.Machine.execRc4Dec s
  | .aesInit mode => Sys2Proof.Machine.execAesInit mode s
  | .aesEnc => Sys2Proof.Machine.execAesEnc s
  | .aesDec => Sys2Proof.Machine.execAesDec s
  | .aesIsInit => Sys2Proof.Machine.execAesIsInit s
  | .bfInit => Sys2Proof.Machine.execBfInit s
  | .bfEnc => Sys2Proof.Machine.execBfEnc s
  | .bfDec => Sys2Proof.Machine.execBfDec s

end Sys2Proof.Machine
end

