-- ==== Sys2Proof/Machine/Host.lean ====
section
/-! DEFINITION. What the host does to CORE between commands (spec/10_state.md R28, R38; 20_memory.md R107): register reads and
writes by index, memory reads and writes, the reset event, and the write to CMD that starts a command. -/

namespace Sys2Proof.Machine

open Sys2Proof

/-- A write of `w` to CMD (10 R23). While FAULT = 1 nothing happens at all: the word is not decoded (60 R274). Otherwise the
word is decoded; one that names no command raises ILLEGAL_CMD with FOPC = w[7:0] (30 R121, 60 R272). -/
def submit (w : Word) (s : State) : StepOutcome :=
  if s.fault then done s
  else
    match decode w with
    | .ok i => exec i s
    | .error _ => raise .illegalCmd (opcField w) s

/-- A host write of `v` to the register of index `index` (10 R28): writes to RES, STATUS and to indices 6 and above are
ignored. -/
def hostWriteReg (index : Nat) (v : Word) (s : State) : StepOutcome :=
  match index with
  | 0 => submit v s
  | 1 => done { s with a0 := v }
  | 2 => done { s with a1 := v }
  | 3 => done { s with a2 := v }
  | _ => done s

/-- A host read of the register of index `index` (10 R28): CMD and indices 6 and above read 0. A read changes nothing. -/
def State.hostReadReg (s : State) (index : Nat) : Word :=
  match index with
  | 1 => s.a0
  | 2 => s.a1
  | 3 => s.a2
  | 4 => s.res
  | 5 => s.status
  | _ => 0

/-- A host write of one byte of MEM (10 R38); an address at or above MEM_SIZE names no byte (20 R90), and the model stops
there (safe, log entry 6). -/
def hostWriteMem (addr : Nat) (v : Byte) (s : State) : StepOutcome :=
  if addr < s.params.memSize then done (s.setMem (s.mem.write addr v)) else .fault .hostAddressOutsideMem

/-- A host read of one byte of MEM (10 R38), where the byte exists (20 R90); none elsewhere (log entry 6). -/
def State.hostReadMem (s : State) (addr : Nat) : Option Byte :=
  if addr < s.params.memSize then some (s.mem.read addr) else none

/-- One action of the host. -/
def hostAct : HostAction → State → StepOutcome
  | .writeReg index v, s => hostWriteReg index v s
  | .writeMem addr v, s => hostWriteMem addr v s
  | .reset, s => done s.resetEvent

/-- The next thing that happens: the host's next action, which no longer stands in the queue. With no action to come the
engine is idle and all state is held (60 R286). -/
def hostNext (s : State) : StepOutcome :=
  match s.host with
  | [] => done s
  | a :: rest => hostAct a { s with host := rest }

/-- The state in which the host's next action is the write of this command word to CMD (10 R23, log entry 7). -/
def placeCommand (s : State) (w : Word) : State := { s with host := .writeReg 0 w :: s.host }

end Sys2Proof.Machine
end

