-- ==== Sys2Proof/Machine/Step.lean ====
section
/-! DEFINITION. One step of the machine: one action of the host, a command being executed whole within it
(spec/00_scope.md R14). -/

namespace Sys2Proof.Machine

open Sys2Proof

/-- One step: the host's next action (30 R131; 00 R14: a command is one atomic step). -/
def step (s : State) : Host.Outcome State Fault Refusal := hostNext s

/-- `s` with the command word `w` (of `nbits` bits, those above 0) as the host's next write to CMD: CORE fetches nothing
(10 R24), the host's write is where its next command comes from (log entry 7). -/
def State.withFetchWord (s : State) (nbits w : Nat) : State := placeCommand s (BitVec.ofNat 32 (w % 2 ^ nbits))

end Sys2Proof.Machine
end

