-- ==== Sys2Proof/Machine/Script.lean ====
section
/-! DEFINITION. The spec's textual form of commands and its command scripts (spec/30_encoding.md R126, R127, R131): each line
stands for host actions. -/

namespace Sys2Proof.Machine

open Sys2Proof

/-- An operand of a script line: a number, or a symbol the script defines (30 R126). That the defining `.equ` stands on an
earlier line is the model's choice (log entry 16). -/
inductive Operand where
  | num (n : Nat)
  | sym (name : String)
  deriving DecidableEq, Repr

/-- A line of a script (30 R126, R127). DESIGN CHOICE: R126 lets a command's operand be a number or a symbol, and R127 does not
say what v, w and addr of `SET`, `RAW` and `.mem` may be; here each is a number or a symbol too (log entry 18). -/
inductive ScriptLine where
  /-- `MNEMONIC operand, ...`, operands in the order of 30 R124; AES.INIT's mode is part of the command. -/
  | cmd (i : Instr) (operands : List Operand)
  /-- `AES.INIT.ECB iv, key, keyLength`. -/
  | aesInitEcb (iv key keyLength : Operand)
  /-- `AES.INIT.CBC iv, key, keyLength`. -/
  | aesInitCbc (iv key keyLength : Operand)
  /-- `RC4.CRYPT data, length`. -/
  | rc4Crypt (data length : Operand)
  /-- `SET An, v`; that v may be a symbol is the model's choice (log entry 18). -/
  | set (n : Fin 3) (v : Operand)
  /-- `RAW w`; that w may be a symbol is the model's choice (log entry 18). -/
  | raw (w : Operand)
  /-- `.mem addr, hexbytes`; that addr may be a symbol is the model's choice (log entry 18). -/
  | mem (addr : Operand) (bytes : List Byte)
  /-- `.equ NAME, number`. -/
  | equ (name : String) (n : Nat)
  /-- `.reset`. -/
  | reset
  deriving DecidableEq, Repr

/-- How many operand registers a command's line writes: A0 up to the last operand of 30 R124. -/
def operandCount : Instr → Nat
  | .pkcs5PadLen => 2
  | .pkcs5Pad => 3
  | .pkcs5UnpadLen => 2
  | .pkcs5ChkLen => 2
  | .rc4Init => 2
  | .rc4Enc => 2
  | .rc4Dec => 2
  | .aesInit _ => 3
  | .aesEnc => 3
  | .aesDec => 3
  | .aesIsInit => 0
  | .bfInit => 2
  | .bfEnc => 3
  | .bfDec => 3

/-- The symbols defined so far, latest first. A lookup takes the latest definition, the model's choice (log entry 17). -/
abbrev Symbols := List (String × Nat)

/-- The symbols before the first line: `NULL` is address 0 (20 R91, 30 R126). The spec writes it
as an address; that it may stand for any operand is the model's choice (log entry 18). -/
def startSymbols : Symbols := [("NULL", 0)]

/-- The 32-bit value of an operand; none for a symbol that is not defined and for a number that is no 32-bit value, which no
line of the spec's syntax gives a meaning (log entry 9). -/
def operandValue (syms : Symbols) : Operand → Option Word
  | .num n => if n < 2 ^ 32 then some (BitVec.ofNat 32 n) else none
  | .sym name => (syms.lookup name).bind fun n => if n < 2 ^ 32 then some (BitVec.ofNat 32 n) else none

/-- The host actions `A_k <- operand` for the operands of a line, from register index `index` on (30 R126; A0 is index 1). -/
def operandWrites (syms : Symbols) : Nat → List Operand → Option (List HostAction)
  | _, [] => some []
  | index, o :: os =>
    match operandValue syms o, operandWrites syms (index + 1) os with
    | some v, some rest => some (.writeReg index v :: rest)
    | _, _ => none

/-- The actions of `MNEMONIC operands`: the operand writes in order, then `CMD <- word` (30 R126). -/
def commandActions (syms : Symbols) (i : Instr) (operands : List Operand) : Option (List HostAction) :=
  if operands.length = operandCount i then
    (operandWrites syms 1 operands).map fun writes => writes ++ [.writeReg 0 (encode i)]
  else none

/-- `.mem addr, hexbytes`: one write per byte, lowest address first (30 R127). -/
def memActions (addr : Nat) : List Byte → List HostAction
  | [] => []
  | v :: vs => .writeMem addr v :: memActions (addr + 1) vs

/-- The host actions one line stands for (30 R126, R127); none where an operand has no value. -/
def lineActions (syms : Symbols) : ScriptLine → Option (List HostAction)
  | .cmd i operands => commandActions syms i operands
  | .aesInitEcb iv key len => commandActions syms (.aesInit .ecb) [iv, key, len]
  | .aesInitCbc iv key len => commandActions syms (.aesInit .cbc) [iv, key, len]
  | .rc4Crypt data len => commandActions syms .rc4Enc [data, len]
  | .set n v => (operandValue syms v).map fun v => [.writeReg (n.val + 1) v]
  | .raw w => (operandValue syms w).map fun w => [.writeReg 0 w]
  | .mem addr bytes => (operandValue syms addr).map fun a => memActions a.toNat bytes
  | .equ _ _ => some []
  | .reset => some [.reset]

/-- The symbols after a line (30 R127): `.equ NAME, number` defines NAME. DESIGN CHOICE, the spec is silent: where NAME is
defined already, NULL included, the latest definition holds from the next line on (log entry 17). -/
def lineSymbols (syms : Symbols) : ScriptLine → Symbols
  | .cmd _ _ => syms
  | .aesInitEcb _ _ _ => syms
  | .aesInitCbc _ _ _ => syms
  | .rc4Crypt _ _ => syms
  | .set _ _ => syms
  | .raw _ => syms
  | .mem _ _ => syms
  | .equ name n => (name, n) :: syms
  | .reset => syms

/-- The host actions of a script, line 0 first (30 R131); none where a line has none (log entry 9). DESIGN CHOICE: R126 says
only "a symbol the script defines", and here a line has the symbols of the lines before it, so a script in which a line uses a
symbol whose `.equ` stands on a later line has no actions (log entry 16). -/
def scriptActions : Symbols → List ScriptLine → Option (List HostAction)
  | _, [] => some []
  | syms, l :: ls =>
    match lineActions syms l, scriptActions (lineSymbols syms l) ls with
    | some here, some rest => some (here ++ rest)
    | _, _ => none

/-- The state in which the host is about to execute line 0 of a script (30 R131). -/
def State.withScript (s : State) (script : List ScriptLine) : Option State :=
  (scriptActions startSymbols script).map fun actions => { s with host := actions }

/-- Executes all actions the host has, one step each; stops where the machine stops. -/
def runActions : Nat → State → StepOutcome
  | 0, s => done s
  | n + 1, s =>
    match step s with
    | .next t => runActions n t
    | .fault r => .fault r
    | .refused r => .refused r

/-- The state at the end of the run of a script: the state after its last line (30 R131). -/
def State.runScript (s : State) (script : List ScriptLine) : Option StepOutcome :=
  (s.withScript script).map fun t => runActions t.host.length t

end Sys2Proof.Machine
end

