-- ==== Sys2Proof/Safety.lean ====
section
/-! DEFINITION. What claims about CORE are stated in: a clean run, the fault conditions of each command, the bytes each
command writes, the invariant of the state, and the FIPS-197 form of the AES rounds. -/

namespace Sys2Proof.Machine

open Sys2Proof

/-- A run is clean when `FAULT = 0` at its end (30 R131). -/
abbrev State.Clean (s : State) : Prop := s.fault = false

/-- The next state an outcome gives, if any. -/
def nextOf : StepOutcome → Option State
  | .next t => some t
  | .fault _ => none
  | .refused _ => none

/-- The command ends with fault entry: FAULT, ERR and FOPC change and nothing else does (60 R272, R273). -/
abbrev FaultsWith (i : Instr) (s : State) (code opc : Byte) : Prop :=
  exec i s = .next { s with fault := true, err := code, fopc := opc }

/-- The first four operand checks of a block command on a buffer of `blockBytes`-byte blocks, each tested where the ones
before it passed: NULL_PTR, LENGTH, BOUNDS, OVERLAP (43 R216, 44 R251). -/
abbrev BlockOperandFaults (i : Instr) (opc : Byte) (blockBytes : Nat) (s : State) : Prop :=
  (s.a0 = 0 ∨ s.a1 = 0 → FaultsWith i s 0x03 opc) ∧
  (s.a0 ≠ 0 → s.a1 ≠ 0 → s.a2 = 0 ∨ s.a2.toNat % blockBytes ≠ 0 → FaultsWith i s 0x04 opc) ∧
  (s.a0 ≠ 0 → s.a1 ≠ 0 → s.a2 ≠ 0 → s.a2.toNat % blockBytes = 0 →
    s.params.memSize < s.a0.toNat + s.a2.toNat ∨ s.params.memSize < s.a1.toNat + s.a2.toNat → FaultsWith i s 0x08 opc) ∧
  (s.a0 ≠ 0 → s.a1 ≠ 0 → s.a2 ≠ 0 → s.a2.toNat % blockBytes = 0 →
    s.a0.toNat + s.a2.toNat ≤ s.params.memSize → s.a1.toNat + s.a2.toNat ≤ s.params.memSize →
    s.a0 ≠ s.a1 → s.a0.toNat < s.a1.toNat + s.a2.toNat → s.a1.toNat < s.a0.toNat + s.a2.toNat → FaultsWith i s 0x09 opc)

/-- The operands of a block command pass all of those checks (43 R216, 44 R251): non-null addresses, a positive multiple of
the block size, both ranges inside MEM, in place or disjoint. -/
abbrev BlockOperandsGood (blockBytes : Nat) (s : State) : Prop :=
  s.a0 ≠ 0 ∧ s.a1 ≠ 0 ∧ s.a2 ≠ 0 ∧ s.a2.toNat % blockBytes = 0 ∧
  s.a0.toNat + s.a2.toNat ≤ s.params.memSize ∧ s.a1.toNat + s.a2.toNat ≤ s.params.memSize ∧
  (s.a0 = s.a1 ∨ s.a0.toNat + s.a2.toNat ≤ s.a1.toNat ∨ s.a1.toNat + s.a2.toNat ≤ s.a0.toNat)

/-- Every byte outside the `n` bytes from `a` on reads as before. -/
abbrev SameOutside (m m' : Memory) (a n : Nat) : Prop := ∀ c, c < a ∨ a + n ≤ c → m'.read c = m.read c

/-! ## Which fault conditions hold (60 R270, R275, R276) -/

/-- AES.INIT refuses recoverably: mode, null key or key length (60 R271). -/
def aesInitRefused (mode : ModeField) (s : State) : Bool :=
  (cipherModeOf mode).isNone || isNull s.a1 || (AesRounds.ofKeyLength s.a2.toNat).isNone

/-- BF.INIT refuses recoverably: key length 0 or above 56 (60 R271). -/
def bfInitRefused (s : State) : Bool := s.a1 == 0 || decide (56 < s.a1.toNat)

/-- The CBC context has no IV (60 R270, NO_IV). -/
def ivMissing (s : State) : Bool :=
  match s.aes with
  | none => false
  | some c => c.mode == .cbc && c.iv.isNone

/-- The conditions of the operands of a block command, in no order (43 R216, 44 R251). -/
def blockCondition (blockBytes : Nat) (s : State) : FaultCode → Bool
  | .nullPtr => isNull s.a0 || isNull s.a1
  | .length => s.a2 == 0 || decide (s.a2.toNat % blockBytes ≠ 0)
  | .bounds => !s.inRange s.a0 s.a2.toNat || !s.inRange s.a1 s.a2.toNat
  | .overlap => overlaps s.a0 s.a1 s.a2.toNat
  | _ => false

/-- Does this fault condition hold for this command (60 R276)? No order is implied; a condition on an operand that a lower
code already refuses may hold as well. -/
def faultCondition : Instr → State → FaultCode → Bool
  | .pkcs5PadLen, s, .blockSize => !blockSizeOk s.a1
  | .pkcs5PadLen, s, .overflow => padOverflows (padLen s.a0.toNat s.a1.toNat)
  | .pkcs5PadLen, _, _ => false
  | .pkcs5Pad, s, .nullPtr => isNull s.a0
  | .pkcs5Pad, s, .blockSize => !blockSizeOk s.a2
  | .pkcs5Pad, s, .overflow => padOverflows (padLen s.a1.toNat s.a2.toNat)
  | .pkcs5Pad, s, .bounds => !s.inRange s.a0 (padLen s.a1.toNat s.a2.toNat)
  | .pkcs5Pad, _, _ => false
  | .pkcs5UnpadLen, s, .nullPtr => isNull s.a0
  | .pkcs5UnpadLen, s, .length => s.a1 == 0
  | .pkcs5UnpadLen, s, .bounds => !s.inRange s.a0 s.a1.toNat
  | .pkcs5UnpadLen, s, .padValue => decide (s.a1.toNat < (lastByte s.mem s.a0.toNat s.a1.toNat).toNat)
  | .pkcs5UnpadLen, _, _ => false
  | .pkcs5ChkLen, s, .blockSize => !blockSizeOk s.a1
  | .pkcs5ChkLen, _, _ => false
  | .rc4Init, s, .nullPtr => isNull s.a0
  | .rc4Init, s, .keyLen => s.a1 == 0
  | .rc4Init, s, .bounds => !s.inRange s.a0 s.a1.toNat
  | .rc4Init, _, _ => false
  | .rc4Enc, s, .uninit => !s.rc4Init
  | .rc4Enc, s, .nullPtr => isNull s.a0
  | .rc4Enc, s, .bounds => !s.inRange s.a0 s.a1.toNat
  | .rc4Enc, _, _ => false
  | .rc4Dec, s, .uninit => !s.rc4Init
  | .rc4Dec, s, .nullPtr => isNull s.a0
  | .rc4Dec, s, .bounds => !s.inRange s.a0 s.a1.toNat
  | .rc4Dec, _, _ => false
  | .aesInit mode, s, .bounds =>
    !aesInitRefused mode s && (!s.inRange s.a1 s.a2.toNat || (!isNull s.a0 && !s.inRange s.a0 16))
  | .aesInit _, _, _ => false
  | .aesEnc, s, .uninit => !s.aesInit
  | .aesEnc, s, .noIv => ivMissing s
  | .aesEnc, s, code => blockCondition 16 s code
  | .aesDec, s, .uninit => !s.aesInit
  | .aesDec, s, .noIv => ivMissing s
  | .aesDec, s, code => blockCondition 16 s code
  | .aesIsInit, _, _ => false
  | .bfInit, s, .nullPtr => isNull s.a0
  | .bfInit, s, .bounds => !bfInitRefused s && !s.inRange s.a0 s.a1.toNat
  | .bfInit, _, _ => false
  | .bfEnc, s, .uninit => !s.bfInit
  | .bfEnc, s, code => blockCondition 8 s code
  | .bfDec, s, .uninit => !s.bfInit
  | .bfDec, s, code => blockCondition 8 s code

/-! ## Which bytes a command writes (20 R99) -/

/-- The start and the number of the bytes of MEM a command writes when it completes (20 R99). -/
def writtenRange : Instr → State → Nat × Nat
  | .pkcs5PadLen, _ => (0, 0)
  | .pkcs5Pad, s => (s.a0.toNat + s.a1.toNat, padLen s.a1.toNat s.a2.toNat - s.a1.toNat)
  | .pkcs5UnpadLen, _ => (0, 0)
  | .pkcs5ChkLen, _ => (0, 0)
  | .rc4Init, _ => (0, 0)
  | .rc4Enc, s => (s.a0.toNat, s.a1.toNat)
  | .rc4Dec, s => (s.a0.toNat, s.a1.toNat)
  | .aesInit _, _ => (0, 0)
  | .aesEnc, s => (s.a0.toNat, s.a2.toNat)
  | .aesDec, s => (s.a0.toNat, s.a2.toNat)
  | .aesIsInit, _ => (0, 0)
  | .bfInit, _ => (0, 0)
  | .bfEnc, s => (s.a0.toNat, s.a2.toNat)
  | .bfDec, s => (s.a0.toNat, s.a2.toNat)

/-- The byte at `a` lies in the range (start, length). -/
abbrev InBytes (r : Nat × Nat) (a : Nat) : Prop := r.1 ≤ a ∧ a < r.1 + r.2

/-! ## The invariant of the state -/

/-- `RC4.S` is a permutation of 0..255 (10 R29): no value stands in two cells. -/
abbrev Rc4Context.Permutation (c : Rc4Context) : Prop := Function.Injective (entry c.s)

/-- The schedules of an AES context are those of some key: `Ek` its expansion, `Dk` the inverse schedule of `Ek` (42 R190). -/
abbrev AesContext.Scheduled (c : AesContext) : Prop :=
  (∃ key : Vector Word c.nr.nk, c.ek = keyExpand c.nr key) ∧ c.dk = invKeySchedule c.ek

/-- A BF context is the schedule of some key of 1 to 56 bytes (44 R247, R248). -/
abbrev BfContext.Scheduled (c : BfContext) : Prop :=
  ∃ (key : Nat → Byte) (len : Nat), 1 ≤ len ∧ len ≤ 56 ∧ c = bfSchedule key len

/-- What holds at reset and after every step. -/
structure State.Inv (s : State) : Prop where
  /-- The memory list has its canonical form. -/
  memCanonical : s.mem.wf = true
  /-- No byte outside `MEM[0 .. MEM_SIZE-1]` is listed (20 R90). -/
  memBelow : s.mem.below s.params.memSize = true
  /-- `2 <= MEM_SIZE <= 2^32` (00 R7). -/
  paramsWf : s.params.Wf
  /-- ERR and FOPC are 0 while FAULT = 0 (10 R27). -/
  noRecord : s.fault = false → s.err = 0 ∧ s.fopc = 0
  /-- ERR is one of the fault codes while FAULT = 1 (60 R270). -/
  record : s.fault = true → ∃ code : FaultCode, s.err = code.byte
  /-- `RC4.S` is a permutation while RC4.INIT = 1 (10 R29). -/
  rc4Permutation : ∀ c, s.rc4 = some c → c.Permutation
  /-- The AES schedules belong to one key while AES.Mode != 0. -/
  aesScheduled : ∀ c, s.aes = some c → c.Scheduled
  /-- The BF context is the schedule of a key while BF.INIT = 1. -/
  bfScheduled : ∀ c, s.bf = some c → c.Scheduled

/-! ## The FIPS-197 form of the AES rounds (43 R213), words being columns -/

/-- `SubBytes` with the box `box`. -/
def substBytes (box : Vector Byte 256) (s : Block) : Block :=
  let sub (w : Word) : Word :=
    be32 (entry box (byte0 w)) (entry box (byte1 w)) (entry box (byte2 w)) (entry box (byte3 w))
  ⟨sub s.w0, sub s.w1, sub s.w2, sub s.w3⟩

/-- `ShiftRows`: row k moves left by k columns (43 R213). -/
def shiftRows (s : Block) : Block where
  w0 := be32 (byte0 s.w0) (byte1 s.w1) (byte2 s.w2) (byte3 s.w3)
  w1 := be32 (byte0 s.w1) (byte1 s.w2) (byte2 s.w3) (byte3 s.w0)
  w2 := be32 (byte0 s.w2) (byte1 s.w3) (byte2 s.w0) (byte3 s.w1)
  w3 := be32 (byte0 s.w3) (byte1 s.w0) (byte2 s.w1) (byte3 s.w2)

/-- `InvShiftRows`: row k moves right by k columns (43 R213). -/
def invShiftRows (s : Block) : Block where
  w0 := be32 (byte0 s.w0) (byte1 s.w3) (byte2 s.w2) (byte3 s.w1)
  w1 := be32 (byte0 s.w1) (byte1 s.w0) (byte2 s.w3) (byte3 s.w2)
  w2 := be32 (byte0 s.w2) (byte1 s.w1) (byte2 s.w0) (byte3 s.w3)
  w3 := be32 (byte0 s.w3) (byte1 s.w2) (byte2 s.w1) (byte3 s.w0)

/-- A column times the circulant matrix whose first row is `(k0 k1 k2 k3)`, in GF(2^8) (43 R213). -/
def mixColumn (k0 k1 k2 k3 : Byte) (w : Word) : Word :=
  let a := byte0 w
  let b := byte1 w
  let c := byte2 w
  let d := byte3 w
  be32 (gmul a k0 ^^^ gmul b k1 ^^^ gmul c k2 ^^^ gmul d k3) (gmul a k3 ^^^ gmul b k0 ^^^ gmul c k1 ^^^ gmul d k2)
    (gmul a k2 ^^^ gmul b k3 ^^^ gmul c k0 ^^^ gmul d k1) (gmul a k1 ^^^ gmul b k2 ^^^ gmul c k3 ^^^ gmul d k0)

/-- `MixColumns`: rows (2 3 1 1), (1 2 3 1), (1 1 2 3), (3 1 1 2) (43 R213). -/
def mixColumns (s : Block) : Block :=
  ⟨mixColumn 2 3 1 1 s.w0, mixColumn 2 3 1 1 s.w1, mixColumn 2 3 1 1 s.w2, mixColumn 2 3 1 1 s.w3⟩

/-- `InvMixColumns`: first row (14 11 13 9) (42 R195). -/
def invMixColumns (s : Block) : Block :=
  ⟨mixColumn 14 11 13 9 s.w0, mixColumn 14 11 13 9 s.w1, mixColumn 14 11 13 9 s.w2, mixColumn 14 11 13 9 s.w3⟩

/-! ## The Blowfish bootstrap as one run over 1042 cells (44 R246) -/

/-- Writes the n-th pair of the bootstrap: pairs 0 to 8 are the P-array, then 128 pairs per S-box, L to the even index. -/
def bfWritePair (c : BfContext) (n : Nat) (y : Word × Word) : BfContext :=
  if h : n < 9 then { c with p := (c.p.set (2 * n) y.1).set (2 * n + 1) y.2 }
  else if h : (n - 9) / 128 < 4 then
    let k := (n - 9) % 128
    have : k < 128 := Nat.mod_lt _ (by decide)
    { c with s := c.s.set ((n - 9) / 128) ((c.s[(n - 9) / 128].set (2 * k) y.1).set (2 * k + 1) y.2) }
  else c

end Sys2Proof.Machine
end

