-- ==== Sys2Proof/Certificates/Slice0/Obligations.lean ====
section
/-! DEFINITION. The statements for the provers. Each docstring names the rule of spec/ it formalises, or the sections it is
derived from. A statement over all states is a statement for every MEM_SIZE, every RC4_IJ_PERSIST and every contents of MEM
(log entries 4 and 5). -/

open Sys2Proof Sys2Proof.Machine

/-! ## Reset, host registers, decoding -/

/-- 10_state.md R37: every register, flag and context after reset, whatever the parameters, the memory and the host; and the
model's State.reset is such a state. -/
def Obligations.ResetGivesEveryRegisterItsValue : Prop :=
  (∀ (p : Params) (m : Memory) (h : List HostAction),
    let s := State.afterReset p m h
    s.a0 = 0 ∧ s.a1 = 0 ∧ s.a2 = 0 ∧ s.res = 0 ∧ s.hostReadReg 0 = 0 ∧ s.fault = false ∧ s.err = 0 ∧ s.fopc = 0 ∧
    s.rc4Init = false ∧ s.rc4 = none ∧ s.aesMode = 0 ∧ s.aesIvValid = false ∧ s.aes = none ∧ s.bfInit = false ∧
    s.bf = none ∧ s.mem = m ∧ s.status = 0) ∧
  ∃ p m h, State.reset = State.afterReset p m h

/-- 70_reset_and_hazards.md R300 and R301: the reset event puts every register, flag and context in its reset value and changes
neither MEM nor the parameters; it is the only event that clears FAULT. -/
def Obligations.ResetEventKeepsMemory : Prop :=
  (∀ (s : State) (rest : List HostAction), s.host = .reset :: rest →
    ∃ t, step s = .next t ∧ t.a0 = 0 ∧ t.a1 = 0 ∧ t.a2 = 0 ∧ t.res = 0 ∧ t.fault = false ∧ t.err = 0 ∧ t.fopc = 0 ∧
      t.rc4Init = false ∧ t.rc4 = none ∧ t.aesMode = 0 ∧ t.aesIvValid = false ∧ t.aes = none ∧ t.bfInit = false ∧
      t.bf = none ∧ t.status = 0 ∧ t.mem = s.mem ∧ t.params = s.params ∧ t.host = rest) ∧
  (∀ s t : State, s.fault = true → step s = .next t → t.fault = false → ∃ rest, s.host = .reset :: rest)

/-- 60_exceptions.md R274: while FAULT = 1 a write to CMD does nothing at all, host writes to A0, A1, A2 and MEM still work,
host reads still work, and no step but the reset event clears FAULT or changes the record. -/
def Obligations.FaultIsStickyUntilReset : Prop :=
  (∀ (s : State) (w : Word) (rest : List HostAction), s.fault = true → s.host = .writeReg 0 w :: rest →
    step s = .next { s with host := rest }) ∧
  (∀ (s : State) (v : Word) (rest : List HostAction), s.fault = true →
    (s.host = .writeReg 1 v :: rest → step s = .next { s with a0 := v, host := rest }) ∧
    (s.host = .writeReg 2 v :: rest → step s = .next { s with a1 := v, host := rest }) ∧
    (s.host = .writeReg 3 v :: rest → step s = .next { s with a2 := v, host := rest })) ∧
  (∀ (s : State) (a : Nat) (v : Byte) (rest : List HostAction), s.fault = true → a < s.params.memSize →
    s.host = .writeMem a v :: rest → step s = .next { s with mem := s.mem.write a v, host := rest }) ∧
  (∀ (s : State), s.fault = true → s.hostReadReg 1 = s.a0 ∧ s.hostReadReg 2 = s.a1 ∧ s.hostReadReg 3 = s.a2 ∧
    s.hostReadReg 4 = s.res ∧ s.hostReadReg 5 = s.status ∧
    ∀ a, a < s.params.memSize → s.hostReadMem a = some (s.mem.read a)) ∧
  (∀ (s t : State), s.fault = true → step s = .next t →
    (t.fault = true ∧ t.err = s.err ∧ t.fopc = s.fopc) ∨ ∃ rest, s.host = .reset :: rest)

/-- 10_state.md R27: every field of STATUS, the two reserved fields reading 0, AES_MODE never 3, ERR and FOPC 0 while FAULT = 0
(in a state that meets the invariant), FOPC the OPC of the command that faulted, and a host write to STATUS being ignored. -/
def Obligations.StatusRegisterFields : Prop :=
  (∀ s : State,
    s.status.extractLsb' 0 1 = BitVec.ofBool s.fault ∧ s.status.extractLsb' 1 1 = BitVec.ofBool s.rc4Init ∧
    s.status.extractLsb' 2 1 = BitVec.ofBool (s.aesMode != 0) ∧ s.status.extractLsb' 3 1 = BitVec.ofBool s.bfInit ∧
    s.status.extractLsb' 4 2 = s.aesMode ∧ s.aesMode ≠ 3 ∧ s.status.extractLsb' 6 1 = BitVec.ofBool s.aesIvValid ∧
    s.status.extractLsb' 7 1 = 0 ∧ s.status.extractLsb' 8 8 = s.err ∧ s.status.extractLsb' 16 8 = s.fopc ∧
    s.status.extractLsb' 24 8 = 0) ∧
  (∀ s : State, s.Inv → s.fault = false → s.status.extractLsb' 8 8 = 0 ∧ s.status.extractLsb' 16 8 = 0) ∧
  (∀ s : State, s.Inv → s.fault = true → ∃ code : FaultCode, s.status.extractLsb' 8 8 = code.byte) ∧
  (∀ (i : Instr) (s t : State), s.fault = false → exec i s = .next t → t.fault = true →
    t.status.extractLsb' 16 8 = opcOf i) ∧
  (∀ (s : State) (v : Word) (rest : List HostAction), s.host = .writeReg 5 v :: rest →
    step s = .next { s with host := rest })

/-- 10_state.md R28: the six host registers by index, reads and writes, and the indices that do not exist. -/
def Obligations.HostRegisterSpace : Prop :=
  (∀ s : State, s.hostReadReg 0 = 0 ∧ s.hostReadReg 1 = s.a0 ∧ s.hostReadReg 2 = s.a1 ∧ s.hostReadReg 3 = s.a2 ∧
    s.hostReadReg 4 = s.res ∧ s.hostReadReg 5 = s.status ∧ ∀ n, 6 ≤ n → s.hostReadReg n = 0) ∧
  (∀ (s : State) (v : Word) (rest : List HostAction),
    (s.host = .writeReg 0 v :: rest → step s = submit v { s with host := rest }) ∧
    (s.host = .writeReg 1 v :: rest → step s = .next { s with a0 := v, host := rest }) ∧
    (s.host = .writeReg 2 v :: rest → step s = .next { s with a1 := v, host := rest }) ∧
    (s.host = .writeReg 3 v :: rest → step s = .next { s with a2 := v, host := rest }) ∧
    ∀ n, 4 ≤ n → s.host = .writeReg n v :: rest → step s = .next { s with host := rest })

/-- Derived (20_memory.md section 1, R90; 10_state.md section 9, R38; 60_exceptions.md section 6, R286): a host write of a byte
of MEM, read back, every other byte as before; a host read of a byte; and with nothing to do the state is held. Two things
here are the model's, not the spec's: that a host read at or above MEM_SIZE gives none (log entry 6, DESIGN CHOICE: the spec
gives such an access no effect), and that a step with no host action to come is a step that holds the state (log entry 8,
DEDUCED). -/
def Obligations.HostMemoryWritesAndIdle : Prop :=
  (∀ (s : State) (a : Nat) (v : Byte) (rest : List HostAction), s.host = .writeMem a v :: rest → a < s.params.memSize →
    ∃ m, step s = .next { s with mem := m, host := rest } ∧ m.read a = v ∧ ∀ c, c ≠ a → m.read c = s.mem.read c) ∧
  (∀ (s : State) (a : Nat), s.hostReadMem a = if a < s.params.memSize then some (s.mem.read a) else none) ∧
  (∀ s : State, s.host = [] → step s = .next s)

/-- Derived (30_encoding.md section 1, R121): a step whose host action writes a word that decodes to a command, while FAULT = 0, is exec of that
command on the state with the action taken; so is a step after withFetchWord. That a host action is one step (log entry 1) and
what withFetchWord does (log entry 7) are the model's choices, DESIGN CHOICE both: CORE fetches nothing, and the model places a
word as the next host write to CMD. -/
def Obligations.StepRunsDecodedCommand : Prop :=
  (∀ (s : State) (w : Word) (rest : List HostAction) (i : Instr), s.fault = false → s.host = .writeReg 0 w :: rest →
    decode w = .ok i → step s = exec i { s with host := rest }) ∧
  (∀ (s : State) (nbits w : Nat) (i : Instr), s.fault = false → decodeTableWord nbits w = some i →
    step (s.withFetchWord nbits w) = exec i s)

/-- 30_encoding.md R125 and R121: a word with a non-zero ZERO field, an unlisted OPC, or a non-zero MODE outside AES.INIT raises
ILLEGAL_CMD with FOPC its low byte; every other word is the encoding of a command and runs it. -/
def Obligations.IllegalWordsRaise : Prop :=
  ∀ (s : State) (w : Word) (rest : List HostAction), s.fault = false → s.host = .writeReg 0 w :: rest →
    (w.extractLsb' 10 22 ≠ 0 ∨ opcListed (w.extractLsb' 0 8) = false ∨ (w.extractLsb' 8 2 ≠ 0 ∧ w.extractLsb' 0 8 ≠ 0x30) →
      step s = .next { s with host := rest, fault := true, err := 0x01, fopc := w.extractLsb' 0 8 }) ∧
    (w.extractLsb' 10 22 = 0 → opcListed (w.extractLsb' 0 8) = true →
      (w.extractLsb' 8 2 = 0 ∨ w.extractLsb' 0 8 = 0x30) →
      ∃ i, encode i = w ∧ step s = exec i { s with host := rest })

/-- Derived (30_encoding.md sections 1, 3 and 4, R121, R123 and R125): the decoder accepts exactly the encodings, over all 2^32 words: decode of encode is the command, and no
other word decodes to it. -/
def Obligations.DecodeAcceptsExactlyEncodings : Prop :=
  ∀ (w : Word) (i : Instr), decode w = .ok i ↔ encode i = w

/-- 30_encoding.md R123: every command but AES.INIT is matched by one word, AES.INIT by its mask and match, MODE in bits 9:8. -/
def Obligations.CommandsMatchTheirMasks : Prop :=
  ∀ w : Word,
    (decode w = .ok .pkcs5PadLen ↔ w = 0x00000010) ∧ (decode w = .ok .pkcs5Pad ↔ w = 0x00000011) ∧
    (decode w = .ok .pkcs5UnpadLen ↔ w = 0x00000012) ∧ (decode w = .ok .pkcs5ChkLen ↔ w = 0x00000013) ∧
    (decode w = .ok .rc4Init ↔ w = 0x00000020) ∧ (decode w = .ok .rc4Enc ↔ w = 0x00000021) ∧
    (decode w = .ok .rc4Dec ↔ w = 0x00000022) ∧ (decode w = .ok .aesEnc ↔ w = 0x00000031) ∧
    (decode w = .ok .aesDec ↔ w = 0x00000032) ∧ (decode w = .ok .aesIsInit ↔ w = 0x00000033) ∧
    (decode w = .ok .bfInit ↔ w = 0x00000040) ∧ (decode w = .ok .bfEnc ↔ w = 0x00000041) ∧
    (decode w = .ok .bfDec ↔ w = 0x00000042) ∧
    ((∃ mode, decode w = .ok (.aesInit mode)) ↔ w &&& 0xfffffcff = 0x00000030) ∧
    (∀ mode, decode w = .ok (.aesInit mode) → w.extractLsb' 8 2 = mode.bits)

/-- Derived (30_encoding.md sections 2 and 3, R122 and R123; 95_test_vectors.md V40): the decoder on words written out from the spec. -/
def Obligations.DecoderReadsWrittenWords : Prop :=
  decode 0x00000010 = .ok .pkcs5PadLen ∧ decode 0x00000022 = .ok .rc4Dec ∧ decode 0x00000130 = .ok (.aesInit .ecb) ∧
  decode 0x00000230 = .ok (.aesInit .cbc) ∧ decode 0x00000330 = .ok (.aesInit .reserved) ∧ decode 0x00000041 = .ok .bfEnc ∧
  decode 0x00000131 = .error .modeField ∧ decode 0x00000430 = .error .zeroField ∧ decode 0x00000014 = .error .unlistedOpc

/-! ## The whole machine -/

/-- 30_encoding.md R128: every command ends, in a next state, and changes nothing of what the host does next. -/
def Obligations.EveryCommandEnds : Prop := ∀ (i : Instr) (s : State), ∃ t, exec i s = .next t ∧ t.host = s.host

/-- Derived (20_memory.md section 1, R90): a step stops only, and always, on a host write to a byte that does not exist. That the
model stops there is its own choice, log entry 6: the spec gives such a write no effect. -/
def Obligations.StepStopsOnlyOutsideMemory : Prop :=
  (∀ s : State, (∃ t, step s = .next t) ∨
    ∃ a v rest, s.host = .writeMem a v :: rest ∧ s.params.memSize ≤ a ∧ step s = .fault .hostAddressOutsideMem) ∧
  (∀ (s : State) (a : Nat) (v : Byte) (rest : List HostAction), s.host = .writeMem a v :: rest → s.params.memSize ≤ a →
    step s = .fault .hostAddressOutsideMem)

/-- 60_exceptions.md R272 and R273: a command that faults, and a word that names none, change FAULT, ERR and FOPC and nothing
else; FOPC is the OPC byte of the word. -/
def Obligations.FaultChangesOnlyTheRecord : Prop :=
  (∀ (i : Instr) (s t : State), s.fault = false → exec i s = .next t → t.fault = true →
    ∃ code : FaultCode, t = { s with fault := true, err := code.byte, fopc := opcOf i }) ∧
  (∀ (s t : State) (w : Word) (rest : List HostAction), s.fault = false → s.host = .writeReg 0 w :: rest →
    step s = .next t → t.fault = true →
    ∃ code : FaultCode, t = { s with host := rest, fault := true, err := code.byte, fopc := w.extractLsb' 0 8 })

/-- 60_exceptions.md R275: of the fault conditions that hold, the one with the lowest code is reported; where none holds the
command completes without a fault. -/
def Obligations.LowestFaultCodeWins : Prop :=
  (∀ (i : Instr) (s : State) (code : FaultCode), s.fault = false →
    (FaultsWith i s code.byte (opcOf i) ↔
      faultCondition i s code = true ∧ ∀ c : FaultCode, c.byte.toNat < code.byte.toNat → faultCondition i s c = false)) ∧
  (∀ (i : Instr) (s : State), s.fault = false → (∀ c, faultCondition i s c = false) →
    ∃ t, exec i s = .next t ∧ t.fault = false ∧ t.err = s.err ∧ t.fopc = s.fopc)

/-- Derived (60_exceptions.md section 3, the table R276, which the spec marks as derived): the codes each command can raise. -/
def Obligations.FaultCodesOfEachCommand : Prop :=
  ∀ (i : Instr) (s t : State), s.fault = false → exec i s = .next t → t.fault = true →
    match i with
    | .pkcs5PadLen => t.err = 0x06 ∨ t.err = 0x07
    | .pkcs5Pad => t.err = 0x03 ∨ t.err = 0x06 ∨ t.err = 0x07 ∨ t.err = 0x08
    | .pkcs5UnpadLen => t.err = 0x03 ∨ t.err = 0x04 ∨ t.err = 0x08 ∨ t.err = 0x0b
    | .pkcs5ChkLen => t.err = 0x06
    | .rc4Init => t.err = 0x03 ∨ t.err = 0x05 ∨ t.err = 0x08
    | .rc4Enc => t.err = 0x02 ∨ t.err = 0x03 ∨ t.err = 0x08
    | .rc4Dec => t.err = 0x02 ∨ t.err = 0x03 ∨ t.err = 0x08
    | .aesInit _ => t.err = 0x08
    | .aesEnc => t.err = 0x02 ∨ t.err = 0x03 ∨ t.err = 0x04 ∨ t.err = 0x08 ∨ t.err = 0x09 ∨ t.err = 0x0a
    | .aesDec => t.err = 0x02 ∨ t.err = 0x03 ∨ t.err = 0x04 ∨ t.err = 0x08 ∨ t.err = 0x09 ∨ t.err = 0x0a
    | .aesIsInit => False
    | .bfInit => t.err = 0x03 ∨ t.err = 0x08
    | .bfEnc => t.err = 0x02 ∨ t.err = 0x03 ∨ t.err = 0x04 ∨ t.err = 0x08 ∨ t.err = 0x09
    | .bfDec => t.err = 0x02 ∨ t.err = 0x03 ∨ t.err = 0x04 ∨ t.err = 0x08 ∨ t.err = 0x09

/-- Derived (10_state.md section 2, R21): no command writes A0, A1 or A2; nor the parameters or the host's queue, the model's own
fields (log entries 1 and 5). -/
def Obligations.OperandsNeverWritten : Prop :=
  ∀ (i : Instr) (s t : State), exec i s = .next t →
    t.a0 = s.a0 ∧ t.a1 = s.a1 ∧ t.a2 = s.a2 ∧ t.params = s.params ∧ t.host = s.host

/-- 10_state.md R22: exactly which commands write RES, what they write when they complete without a fault, and that a fault and
a host write leave it. -/
def Obligations.ResultWrittenAsListed : Prop :=
  (∀ (i : Instr) (s t : State), s.fault = false → exec i s = .next t → t.fault = true → t.res = s.res) ∧
  (∀ (i : Instr) (s t : State), exec i s = .next t → t.fault = false →
    match i with
    | .pkcs5PadLen => t.res.toNat = s.a0.toNat + (s.a1.toNat - s.a0.toNat % s.a1.toNat)
    | .pkcs5Pad => t.res = s.res
    | .pkcs5UnpadLen => t.res.toNat = s.a1.toNat - (s.mem.read (s.a0.toNat + s.a1.toNat - 1)).toNat
    | .pkcs5ChkLen => t.res = if s.a0.toNat % s.a1.toNat = 0 then 1 else 0
    | .rc4Init => t.res = s.res
    | .rc4Enc => t.res = s.a1
    | .rc4Dec => t.res = s.a1
    | .aesInit _ => t.res = if t.aes.isSome then 1 else 0
    | .aesEnc => t.res = s.a2
    | .aesDec => t.res = s.a2
    | .aesIsInit => t.res = if s.aesMode ≠ 0 then 1 else 0
    | .bfInit => t.res = if t.bf.isSome then 1 else 0
    | .bfEnc => t.res = s.res
    | .bfDec => t.res = s.res) ∧
  (∀ (s : State) (v : Word) (rest : List HostAction), s.host = .writeReg 4 v :: rest →
    step s = .next { s with host := rest }) ∧
  (∀ s : State, s.hostReadReg 4 = s.res)

/-- Derived (20_memory.md section 5, the table R99, which the spec marks as derived): every byte outside those a command writes
reads as before; a command that faults writes none. -/
def Obligations.MemoryWrittenOnlyInRange : Prop :=
  (∀ (i : Instr) (s t : State) (a : Nat), exec i s = .next t → ¬ InBytes (writtenRange i s) a →
    t.mem.read a = s.mem.read a) ∧
  (∀ (i : Instr) (s t : State), s.fault = false → exec i s = .next t → t.fault = true → t.mem = s.mem)

/-- Derived (10_state.md section 5, R31 and R32, and section 4, R26): only AES.INIT or reset changes the AES context, only BF.INIT
or reset the BF context, only the RC4 commands or reset the RC4 context, in any step. -/
def Obligations.ContextsChangedOnlyByTheirCommands : Prop :=
  ∀ s t : State, step s = .next t →
    (t.aes ≠ s.aes → (∃ rest, s.host = .reset :: rest) ∨
      ∃ w rest mode, s.host = .writeReg 0 w :: rest ∧ s.fault = false ∧ decode w = .ok (.aesInit mode)) ∧
    (t.bf ≠ s.bf → (∃ rest, s.host = .reset :: rest) ∨
      ∃ w rest, s.host = .writeReg 0 w :: rest ∧ s.fault = false ∧ decode w = .ok .bfInit) ∧
    (t.rc4 ≠ s.rc4 → (∃ rest, s.host = .reset :: rest) ∨
      ∃ w rest i, s.host = .writeReg 0 w :: rest ∧ s.fault = false ∧ decode w = .ok i ∧
        (i = .rc4Init ∨ i = .rc4Enc ∨ i = .rc4Dec))

/-- Derived (10_state.md sections 4, 5; 20_memory.md section 1; 44_blowfish.md section 3): every step keeps the invariant: canonical
memory inside MEM_SIZE, legal parameters, the fault record, RC4.S a permutation, the AES and BF schedules those of a key. -/
def Obligations.EveryStepKeepsTheInvariant : Prop := ∀ s t : State, s.Inv → step s = .next t → t.Inv

/-- Derived (10_state.md section 8): the invariant holds after reset, for legal parameters and a canonical memory, and so at
State.reset (whose parameters and memory are the model's choice, log entries 4 and 5). -/
def Obligations.InvariantHoldsAfterReset : Prop :=
  (∀ (p : Params) (m : Memory) (h : List HostAction), p.Wf → m.wf = true → m.below p.memSize = true →
    (State.afterReset p m h).Inv) ∧ State.reset.Inv

/-! ## PKCS5 -/

/-- 40_pkcs5.md R151: PKCS5.PADLEN, its faults in order, its result, and the properties of the padded length. -/
def Obligations.PadLenRule : Prop :=
  encode .pkcs5PadLen = 0x00000010 ∧ ∀ s : State,
    let L := s.a0.toNat
    let b := s.a1.toNat
    let p := L + (b - L % b)
    (¬ (1 ≤ b ∧ b ≤ 255) → FaultsWith .pkcs5PadLen s 0x06 0x10) ∧
    (1 ≤ b → b ≤ 255 → 0xffffffff < p → FaultsWith .pkcs5PadLen s 0x07 0x10) ∧
    (1 ≤ b → b ≤ 255 → p ≤ 0xffffffff →
      exec .pkcs5PadLen s = .next { s with res := BitVec.ofNat 32 p } ∧ (BitVec.ofNat 32 p).toNat = p) ∧
    (1 ≤ b → p % b = 0 ∧ L < p ∧ p ≤ L + b ∧ ∀ n, n * b + (b - n * b % b) = (n + 1) * b)

/-- 40_pkcs5.md R152: PKCS5.PAD, its faults in order, the pad bytes it writes and that it writes nothing else. -/
def Obligations.PadRule : Prop :=
  encode .pkcs5Pad = 0x00000011 ∧ ∀ s : State,
    let L := s.a1.toNat
    let b := s.a2.toNat
    let p := L + (b - L % b)
    (s.a0 = 0 → FaultsWith .pkcs5Pad s 0x03 0x11) ∧
    (s.a0 ≠ 0 → ¬ (1 ≤ b ∧ b ≤ 255) → FaultsWith .pkcs5Pad s 0x06 0x11) ∧
    (s.a0 ≠ 0 → 1 ≤ b → b ≤ 255 → 0xffffffff < p → FaultsWith .pkcs5Pad s 0x07 0x11) ∧
    (s.a0 ≠ 0 → 1 ≤ b → b ≤ 255 → p ≤ 0xffffffff → s.params.memSize < s.a0.toNat + p →
      FaultsWith .pkcs5Pad s 0x08 0x11) ∧
    (s.a0 ≠ 0 → 1 ≤ b → b ≤ 255 → p ≤ 0xffffffff → s.a0.toNat + p ≤ s.params.memSize →
      1 ≤ p - L ∧ p - L ≤ b ∧
      ∃ m, exec .pkcs5Pad s = .next { s with mem := m } ∧
        ∀ a, m.read a = if s.a0.toNat + L ≤ a ∧ a < s.a0.toNat + p then BitVec.ofNat 8 (p - L) else s.mem.read a)

/-- 40_pkcs5.md R153: PKCS5.UNPADLEN, its faults in order and its result, from the last byte alone. -/
def Obligations.UnpadLenRule : Prop :=
  encode .pkcs5UnpadLen = 0x00000012 ∧ ∀ s : State,
    let v := s.mem.read (s.a0.toNat + s.a1.toNat - 1)
    (s.a0 = 0 → FaultsWith .pkcs5UnpadLen s 0x03 0x12) ∧
    (s.a0 ≠ 0 → s.a1 = 0 → FaultsWith .pkcs5UnpadLen s 0x04 0x12) ∧
    (s.a0 ≠ 0 → s.a1 ≠ 0 → s.params.memSize < s.a0.toNat + s.a1.toNat → FaultsWith .pkcs5UnpadLen s 0x08 0x12) ∧
    (s.a0 ≠ 0 → s.a1 ≠ 0 → s.a0.toNat + s.a1.toNat ≤ s.params.memSize → s.a1.toNat < v.toNat →
      FaultsWith .pkcs5UnpadLen s 0x0b 0x12) ∧
    (s.a0 ≠ 0 → s.a1 ≠ 0 → s.a0.toNat + s.a1.toNat ≤ s.params.memSize → v.toNat ≤ s.a1.toNat →
      exec .pkcs5UnpadLen s = .next { s with res := BitVec.ofNat 32 (s.a1.toNat - v.toNat) })

/-- 40_pkcs5.md R154: PKCS5.CHKLEN, its fault and its result. -/
def Obligations.ChkLenRule : Prop :=
  encode .pkcs5ChkLen = 0x00000013 ∧ ∀ s : State,
    (¬ (1 ≤ s.a1.toNat ∧ s.a1.toNat ≤ 255) → FaultsWith .pkcs5ChkLen s 0x06 0x13) ∧
    (1 ≤ s.a1.toNat → s.a1.toNat ≤ 255 →
      exec .pkcs5ChkLen s = .next { s with res := if s.a0.toNat % s.a1.toNat = 0 then 1 else 0 })

/-- Derived (40_pkcs5.md section 6, R155, which the spec marks as derived): PAD then UNPADLEN of the padded length returns the
original length. -/
def Obligations.PadThenUnpadReturnsLength : Prop :=
  ∀ s t : State, exec .pkcs5Pad s = .next t → t.fault = false →
    let p := s.a1.toNat + (s.a2.toNat - s.a1.toNat % s.a2.toNat)
    let u : State := { t with a1 := BitVec.ofNat 32 p }
    exec .pkcs5UnpadLen u = .next { u with res := s.a1 }

/-! ## RC4 -/

/-- 41_rc4.md R171: RC4.INIT, its faults in order, the context it writes and that it writes nothing else. -/
def Obligations.Rc4InitRule : Prop :=
  encode .rc4Init = 0x00000020 ∧ ∀ s : State,
    (s.a0 = 0 → FaultsWith .rc4Init s 0x03 0x20) ∧
    (s.a0 ≠ 0 → s.a1 = 0 → FaultsWith .rc4Init s 0x05 0x20) ∧
    (s.a0 ≠ 0 → s.a1 ≠ 0 → s.params.memSize < s.a0.toNat + s.a1.toNat → FaultsWith .rc4Init s 0x08 0x20) ∧
    (s.a0 ≠ 0 → s.a1 ≠ 0 → s.a0.toNat + s.a1.toNat ≤ s.params.memSize →
      exec .rc4Init s =
        .next { s with rc4 := some ⟨ksa (fun k => s.mem.read (s.a0.toNat + k)) s.a1.toNat, 0, 0⟩ })

/-- 41_rc4.md R172: KSA is the end of the run of 256 steps from the identity and j = 0, each adding S[i] and the key byte and
swapping S[i] and S[j]. -/
def Obligations.KsaRunsTheLoop : Prop :=
  ∀ (key : Nat → Byte) (len : Nat), ∃ (S : Nat → Vector Byte 256) (j : Nat → Byte),
    (∀ x, entry (S 0) x = x) ∧ j 0 = 0 ∧
    (∀ i, i < 256 →
      j (i + 1) = j i + entry (S i) (BitVec.ofNat 8 i) + key (i % len) ∧
      ∀ x, entry (S (i + 1)) x =
        if x = BitVec.ofNat 8 i then entry (S i) (j (i + 1))
        else if x = j (i + 1) then entry (S i) (BitVec.ofNat 8 i) else entry (S i) x) ∧
    ksa key len = S 256

/-- Derived (41_rc4.md section 2, the key length note of R171, which the spec marks as derived): a key of 256 bytes or more gives
the state of its first 256 bytes. -/
def Obligations.KsaUsesFirst256KeyBytes : Prop :=
  ∀ (key : Nat → Byte) (len : Nat), 256 ≤ len → ksa key len = ksa key 256

/-- 41_rc4.md R173, R174 and R175: RC4.ENC and RC4.DEC, their faults in order, and the run of PRGA steps whose keystream
is xored into the buffer; the indices start from the context or from 0 as RC4_IJ_PERSIST says. -/
def Obligations.Rc4EncDecRule : Prop :=
  encode .rc4Enc = 0x00000021 ∧ encode .rc4Dec = 0x00000022 ∧ ∀ (s : State) (i : Instr) (opc : Byte), (i = .rc4Enc ∧ opc = 0x21) ∨ (i = .rc4Dec ∧ opc = 0x22) →
    (s.rc4Init = false → FaultsWith i s 0x02 opc) ∧
    (s.rc4Init = true → s.a0 = 0 → FaultsWith i s 0x03 opc) ∧
    (s.rc4Init = true → s.a0 ≠ 0 → s.params.memSize < s.a0.toNat + s.a1.toNat → FaultsWith i s 0x08 opc) ∧
    (∀ c, s.rc4 = some c → s.a0 ≠ 0 → s.a0.toNat + s.a1.toNat ≤ s.params.memSize →
      ∃ (S : Nat → Vector Byte 256) (I J z : Nat → Byte) (m : Memory),
        S 0 = c.s ∧ I 0 = (if s.params.rc4IjPersist then c.i else 0) ∧ J 0 = (if s.params.rc4IjPersist then c.j else 0) ∧
        (∀ k, k < s.a1.toNat →
          I (k + 1) = I k + 1 ∧ J (k + 1) = J k + entry (S k) (I (k + 1)) ∧
          (∀ x, entry (S (k + 1)) x =
            if x = I (k + 1) then entry (S k) (J (k + 1))
            else if x = J (k + 1) then entry (S k) (I (k + 1)) else entry (S k) x) ∧
          z k = entry (S (k + 1)) (entry (S (k + 1)) (I (k + 1)) + entry (S (k + 1)) (J (k + 1)))) ∧
        (∀ k, k < s.a1.toNat → m.read (s.a0.toNat + k) = s.mem.read (s.a0.toNat + k) ^^^ z k) ∧
        SameOutside s.mem m s.a0.toNat s.a1.toNat ∧
        exec i s = .next { s with mem := m, rc4 := some ⟨S s.a1.toNat, I s.a1.toNat, J s.a1.toNat⟩, res := s.a1 })

/-- Derived (41_rc4.md section 5, R177 (c), which the spec marks as derived): with RC4_IJ_PERSIST true, RC4.ENC on n bytes and then
on the m bytes after them is one RC4.ENC on all n + m bytes. -/
def Obligations.Rc4StreamContinues : Prop :=
  ∀ (s t u : State) (b m n : Word), s.params.rc4IjPersist = true →
    exec .rc4Enc s = .next t → t.fault = false →
    b.toNat = s.a0.toNat + s.a1.toNat → n.toNat = s.a1.toNat + m.toNat →
    exec .rc4Enc { t with a0 := b, a1 := m } = .next u → u.fault = false →
    exec .rc4Enc { s with a1 := n } = .next { u with a0 := s.a0, a1 := n, res := n }

/-- Derived (41_rc4.md section 5, R177 (a), which the spec marks as derived): RC4.INIT, RC4.ENC, RC4.INIT with the same key, RC4.DEC
gives back every byte of memory, where the data does not overlap the key. -/
def Obligations.Rc4RoundTrip : Prop :=
  ∀ (s s1 s2 : State) (d n : Word), exec .rc4Init s = .next s1 → s1.fault = false →
    exec .rc4Enc { s1 with a0 := d, a1 := n } = .next s2 → s2.fault = false →
    s.a0.toNat + s.a1.toNat ≤ d.toNat ∨ d.toNat + n.toNat ≤ s.a0.toNat →
    ∃ s3 s4, exec .rc4Init { s2 with a0 := s.a0, a1 := s.a1 } = .next s3 ∧
      exec .rc4Dec { s3 with a0 := d, a1 := n } = .next s4 ∧ s4.fault = false ∧ s4.res = n ∧
      ∀ a, s4.mem.read a = s.mem.read a

/-! ## AES -/

/-- 11_rom_aes.md R61 to R68: xtime, gmul and ginv are the arithmetic of GF(2^8), and the tables are the ones it defines. -/
def Obligations.AesTablesAreTheDefinedOnes : Prop :=
  (∀ a : Byte,
    let t := a.zeroExtend 9 <<< 1
    xtime a = (if t.getLsbD 8 then t ^^^ 0x11b else t).extractLsb' 0 8) ∧
  (∀ a b : Byte, ∃ r p : Nat → Byte, r 0 = 0 ∧ p 0 = a ∧
    (∀ k, k < 8 → r (k + 1) = (if b.getLsbD k then r k ^^^ p k else r k) ∧ p (k + 1) = xtime (p k)) ∧ gmul a b = r 8) ∧
  (ginv 0 = 0 ∧ ∀ a b : Byte, a ≠ 0 → (gmul a b = 1 ↔ b = ginv a)) ∧
  (∀ x : Byte,
    let b := ginv x
    entry sbox x = b ^^^ b.rotateLeft 1 ^^^ b.rotateLeft 2 ^^^ b.rotateLeft 3 ^^^ b.rotateLeft 4 ^^^ 0x63) ∧
  (∀ x : Byte, entry isbox (entry sbox x) = x) ∧
  (∀ x : Byte,
    let s := entry sbox x
    te0 x = be32 (gmul s 2) s s (gmul s 3) ∧ te1 x = be32 (gmul s 3) (gmul s 2) s s ∧
    te2 x = be32 s (gmul s 3) (gmul s 2) s ∧ te3 x = be32 s s (gmul s 3) (gmul s 2) ∧ te4 x = be32 s s s s) ∧
  (∀ x : Byte,
    let s := entry isbox x
    td0 x = be32 (gmul s 14) (gmul s 9) (gmul s 13) (gmul s 11) ∧
    td1 x = be32 (gmul s 11) (gmul s 14) (gmul s 9) (gmul s 13) ∧
    td2 x = be32 (gmul s 13) (gmul s 11) (gmul s 14) (gmul s 9) ∧
    td3 x = be32 (gmul s 9) (gmul s 13) (gmul s 11) (gmul s 14) ∧ td4 x = be32 s s s s) ∧
  (∃ r : Nat → Byte, r 0 = 1 ∧ (∀ k, r (k + 1) = xtime (r k)) ∧ ∀ (k : Nat) (hk : k < 10), rcon[k] = be32 (r k) 0 0 0)

/-- 42_aes_key_schedule.md R190 and R191: AES.INIT: the recoverable failure, the fault, and the context a success writes,
which is all it writes but RES. -/
def Obligations.AesInitRule : Prop :=
  encode (.aesInit .ecb) = 0x00000130 ∧ encode (.aesInit .cbc) = 0x00000230 ∧ encode (.aesInit .modeNone) = 0x00000030 ∧
  encode (.aesInit .reserved) = 0x00000330 ∧ ∀ (mode : ModeField) (s : State),
    let refused := (mode ≠ .ecb ∧ mode ≠ .cbc) ∨ s.a1 = 0 ∨ (s.a2 ≠ 16 ∧ s.a2 ≠ 24 ∧ s.a2 ≠ 32)
    let outside := s.params.memSize < s.a1.toNat + s.a2.toNat ∨ (s.a0 ≠ 0 ∧ s.params.memSize < s.a0.toNat + 16)
    (refused → exec (.aesInit mode) s = .next { s with aes := none, res := 0 }) ∧
    (¬ refused → outside → FaultsWith (.aesInit mode) s 0x08 0x30) ∧
    (¬ refused → ¬ outside →
      ∃ (c : AesContext) (key : Vector Word c.nr.nk),
        exec (.aesInit mode) s = .next { s with aes := some c, res := 1 } ∧
        c.nr.nk = s.a2.toNat / 4 ∧ c.nr.val = c.nr.nk + 6 ∧ c.mode.bits = mode.bits ∧
        (∀ (i : Nat) (hi : i < c.nr.nk), key[i] =
          be32 (s.mem.read (s.a1.toNat + 4 * i)) (s.mem.read (s.a1.toNat + 4 * i + 1))
            (s.mem.read (s.a1.toNat + 4 * i + 2)) (s.mem.read (s.a1.toNat + 4 * i + 3))) ∧
        c.ek = keyExpand c.nr key ∧ c.dk = invKeySchedule c.ek ∧
        c.iv = if s.a0 = 0 then none else some
          ⟨s.mem.readWord s.a0.toNat, s.mem.readWord (s.a0.toNat + 4), s.mem.readWord (s.a0.toNat + 8),
            s.mem.readWord (s.a0.toNat + 12)⟩)

/-- 42_aes_key_schedule.md R192 and R193: the expansion starts with the key words, and every later word is the one Nk before it
xored with the previous word, rotated, substituted and xored with a round constant where the rule says; the rotation and the
substitution by table lookups are those of bytes. -/
def Obligations.KeyExpandRule : Prop :=
  let rot := fun t : Word => rotl32 t 8
  let sub := fun t : Word =>
    (te4 (byte0 t) &&& 0xff000000) ^^^ (te4 (byte1 t) &&& 0x00ff0000) ^^^ (te4 (byte2 t) &&& 0x0000ff00)
      ^^^ (te4 (byte3 t) &&& 0x000000ff)
  (∀ t : Word, rot t = be32 (byte1 t) (byte2 t) (byte3 t) (byte0 t)) ∧
  (∀ t : Word,
    sub t = be32 (entry sbox (byte0 t)) (entry sbox (byte1 t)) (entry sbox (byte2 t)) (entry sbox (byte3 t))) ∧
  ∀ (nr : AesRounds) (key : Vector Word nr.nk),
    let W := keyExpand nr key
    (∀ (i : Nat) (hi : i < 4 * (nr.val + 1)) (hk : i < nr.nk), W[i] = key[i]) ∧
    (∀ (i : Nat) (hi : i < 4 * (nr.val + 1)), nr.nk ≤ i → 0 < i →
      W[i] = W[i - nr.nk] ^^^
        (if i % nr.nk = 0 then sub (rot W[i - 1]) ^^^ rcon.toList.getD (i / nr.nk - 1) 0
        else if nr.nk = 8 ∧ i % nr.nk = 4 then sub W[i - 1] else W[i - 1]))

/-- 42_aes_key_schedule.md R194: the inverse schedule: round keys in reverse order, words in order, all but the first and the last
round key through the inverse column mix. -/
def Obligations.InverseScheduleRule : Prop :=
  ∀ (nr : AesRounds) (ek : Vector Word (4 * (nr.val + 1))) (r c : Nat) (hr : r ≤ nr.val) (hc : c < 4),
    (invKeySchedule ek)[4 * r + c]'(by omega) =
      if 0 < r ∧ r < nr.val then invMixWord (ek[4 * (nr.val - r) + c]'(by omega)) else ek[4 * (nr.val - r) + c]'(by omega)

/-- 42_aes_key_schedule.md R195: InvMixWord, defined by table lookups, is the inverse column mix in GF(2^8). -/
def Obligations.InvMixWordIsTheColumnMix : Prop :=
  (∀ x : Word, invMixWord x =
    td0 (byte3 (te4 (byte0 x))) ^^^ td1 (byte3 (te4 (byte1 x))) ^^^ td2 (byte3 (te4 (byte2 x))) ^^^ td3 (byte3 (te4 (byte3 x)))) ∧
  (∀ b : Byte, td0 (entry sbox b) = be32 (gmul b 14) (gmul b 9) (gmul b 13) (gmul b 11)) ∧
  (∀ a b c d : Byte, invMixWord (be32 a b c d) =
    be32 (gmul a 14 ^^^ gmul b 11 ^^^ gmul c 13 ^^^ gmul d 9) (gmul a 9 ^^^ gmul b 14 ^^^ gmul c 11 ^^^ gmul d 13)
      (gmul a 13 ^^^ gmul b 9 ^^^ gmul c 14 ^^^ gmul d 11) (gmul a 11 ^^^ gmul b 13 ^^^ gmul c 9 ^^^ gmul d 14))

/-- 43_aes_cipher.md R211: the forward block function is Nr - 1 full rounds between the first round key and the final round,
every column from the old state. -/
def Obligations.EncryptBlockRunsTheRounds : Prop :=
  ∀ (nr : AesRounds) (k : Vector Word (4 * (nr.val + 1))) (x : Block),
    let word := fun j => k.toList.getD j 0
    ∃ st : Nat → Block,
      st 0 = ⟨x.w0 ^^^ word 0, x.w1 ^^^ word 1, x.w2 ^^^ word 2, x.w3 ^^^ word 3⟩ ∧
      (∀ r, 1 ≤ r → r < nr.val →
        let s := st (r - 1)
        st r =
          ⟨te0 (byte0 s.w0) ^^^ te1 (byte1 s.w1) ^^^ te2 (byte2 s.w2) ^^^ te3 (byte3 s.w3) ^^^ word (4 * r),
            te0 (byte0 s.w1) ^^^ te1 (byte1 s.w2) ^^^ te2 (byte2 s.w3) ^^^ te3 (byte3 s.w0) ^^^ word (4 * r + 1),
            te0 (byte0 s.w2) ^^^ te1 (byte1 s.w3) ^^^ te2 (byte2 s.w0) ^^^ te3 (byte3 s.w1) ^^^ word (4 * r + 2),
            te0 (byte0 s.w3) ^^^ te1 (byte1 s.w0) ^^^ te2 (byte2 s.w1) ^^^ te3 (byte3 s.w2) ^^^ word (4 * r + 3)⟩) ∧
      let s := st (nr.val - 1)
      let fin := fun a b c d : Word =>
        (te4 (byte0 a) &&& 0xff000000) ^^^ (te4 (byte1 b) &&& 0x00ff0000) ^^^ (te4 (byte2 c) &&& 0x0000ff00)
          ^^^ (te4 (byte3 d) &&& 0x000000ff)
      encryptBlock k x =
        ⟨fin s.w0 s.w1 s.w2 s.w3 ^^^ word (4 * nr.val), fin s.w1 s.w2 s.w3 s.w0 ^^^ word (4 * nr.val + 1),
          fin s.w2 s.w3 s.w0 s.w1 ^^^ word (4 * nr.val + 2), fin s.w3 s.w0 s.w1 s.w2 ^^^ word (4 * nr.val + 3)⟩

/-- Derived (43_aes_cipher.md section 1, R213, which the spec marks as derived): the table rounds are the FIPS-197 rounds. -/
def Obligations.TableRoundsAreFipsRounds : Prop :=
  ∀ s k : Block,
    encRound s k = (mixColumns (shiftRows (substBytes sbox s))).xor k ∧
    encFinalRound s k = (shiftRows (substBytes sbox s)).xor k ∧
    decRound s k = (invMixColumns (invShiftRows (substBytes isbox s))).xor k ∧
    decFinalRound s k = (invShiftRows (substBytes isbox s)).xor k

/-- 43_aes_cipher.md R212: the inverse block function is Nr - 1 full rounds with the Td tables and the row shift the other way,
and, for every key and block, with the inverse schedule it undoes encryption. -/
def Obligations.AesBlockRoundTrip : Prop :=
  (∀ (nr : AesRounds) (k : Vector Word (4 * (nr.val + 1))) (x : Block),
    let word := fun j => k.toList.getD j 0
    ∃ st : Nat → Block,
      st 0 = ⟨x.w0 ^^^ word 0, x.w1 ^^^ word 1, x.w2 ^^^ word 2, x.w3 ^^^ word 3⟩ ∧
      (∀ r, 1 ≤ r → r < nr.val →
        let s := st (r - 1)
        st r =
          ⟨td0 (byte0 s.w0) ^^^ td1 (byte1 s.w3) ^^^ td2 (byte2 s.w2) ^^^ td3 (byte3 s.w1) ^^^ word (4 * r),
            td0 (byte0 s.w1) ^^^ td1 (byte1 s.w0) ^^^ td2 (byte2 s.w3) ^^^ td3 (byte3 s.w2) ^^^ word (4 * r + 1),
            td0 (byte0 s.w2) ^^^ td1 (byte1 s.w1) ^^^ td2 (byte2 s.w0) ^^^ td3 (byte3 s.w3) ^^^ word (4 * r + 2),
            td0 (byte0 s.w3) ^^^ td1 (byte1 s.w2) ^^^ td2 (byte2 s.w1) ^^^ td3 (byte3 s.w0) ^^^ word (4 * r + 3)⟩) ∧
      let s := st (nr.val - 1)
      let fin := fun a b c d : Word =>
        (td4 (byte0 a) &&& 0xff000000) ^^^ (td4 (byte1 b) &&& 0x00ff0000) ^^^ (td4 (byte2 c) &&& 0x0000ff00)
          ^^^ (td4 (byte3 d) &&& 0x000000ff)
      decryptBlock k x =
        ⟨fin s.w0 s.w3 s.w2 s.w1 ^^^ word (4 * nr.val), fin s.w1 s.w0 s.w3 s.w2 ^^^ word (4 * nr.val + 1),
          fin s.w2 s.w1 s.w0 s.w3 ^^^ word (4 * nr.val + 2), fin s.w3 s.w2 s.w1 s.w0 ^^^ word (4 * nr.val + 3)⟩) ∧
  (∀ (nr : AesRounds) (ek : Vector Word (4 * (nr.val + 1))) (x : Block),
    decryptBlock (invKeySchedule ek) (encryptBlock ek x) = x)

/-- 43_aes_cipher.md R214 and R215, 44_blowfish.md R249 and R250: the words of a block in memory, first byte most significant,
and what storing a block writes: its bytes and no others. -/
def Obligations.BlockLoadAndStore : Prop :=
  (∀ (m : Memory) (a n : Nat),
    let word := fun i => be32 (m.read i) (m.read (i + 1)) (m.read (i + 2)) (m.read (i + 3))
    m.readBlock a n = ⟨word (a + 16 * n), word (a + 16 * n + 4), word (a + 16 * n + 8), word (a + 16 * n + 12)⟩ ∧
    m.readHalves a n = (word (a + 8 * n), word (a + 8 * n + 4))) ∧
  (∀ (m : Memory) (d n : Nat) (y : Block),
    (∀ (c k : Nat) (w : Word), [y.w0, y.w1, y.w2, y.w3][c]? = some w → k < 4 →
      (m.writeBlock d n y).read (d + 16 * n + 4 * c + k) = w.extractLsb' (24 - 8 * k) 8) ∧
    SameOutside m (m.writeBlock d n y) (d + 16 * n) 16) ∧
  (∀ (m : Memory) (d n : Nat) (y : Word × Word),
    (∀ (c k : Nat) (w : Word), [y.1, y.2][c]? = some w → k < 4 →
      (m.writeHalves d n y).read (d + 8 * n + 4 * c + k) = w.extractLsb' (24 - 8 * k) 8) ∧
    SameOutside m (m.writeHalves d n y) (d + 8 * n) 8)

/-- 43_aes_cipher.md R216: AES.ENC, its six faults in order, and the ciphertext blocks of ECB and CBC; nothing but
the destination bytes and RES changes. -/
def Obligations.AesEncRule : Prop :=
  encode .aesEnc = 0x00000031 ∧ ∀ s : State,
    (s.aes = none → FaultsWith .aesEnc s 0x02 0x31) ∧
    ∀ c, s.aes = some c →
      BlockOperandFaults .aesEnc 0x31 16 s ∧
      (BlockOperandsGood 16 s → c.mode = .cbc → c.iv = none → FaultsWith .aesEnc s 0x0a 0x31) ∧
      (BlockOperandsGood 16 s → c.mode = .ecb →
        ∃ m, exec .aesEnc s = .next { s with mem := m, res := s.a2 } ∧
          (∀ n, n < s.a2.toNat / 16 →
            m.readBlock s.a0.toNat n = encryptBlock c.ek (s.mem.readBlock s.a1.toNat n)) ∧
          SameOutside s.mem m s.a0.toNat s.a2.toNat) ∧
      (∀ iv, BlockOperandsGood 16 s → c.mode = .cbc → c.iv = some iv →
        ∃ m, exec .aesEnc s = .next { s with mem := m, res := s.a2 } ∧
          (∀ n, n < s.a2.toNat / 16 →
            m.readBlock s.a0.toNat n = encryptBlock c.ek
              ((s.mem.readBlock s.a1.toNat n).xor (if n = 0 then iv else m.readBlock s.a0.toNat (n - 1)))) ∧
          SameOutside s.mem m s.a0.toNat s.a2.toNat)

/-- 43_aes_cipher.md R217: AES.DEC, its six faults in order, and the plaintext blocks of ECB and CBC, each xored
with the previous ciphertext block as it stood before the command; nothing but the destination bytes and RES changes. -/
def Obligations.AesDecRule : Prop :=
  encode .aesDec = 0x00000032 ∧ ∀ s : State,
    (s.aes = none → FaultsWith .aesDec s 0x02 0x32) ∧
    ∀ c, s.aes = some c →
      BlockOperandFaults .aesDec 0x32 16 s ∧
      (BlockOperandsGood 16 s → c.mode = .cbc → c.iv = none → FaultsWith .aesDec s 0x0a 0x32) ∧
      (BlockOperandsGood 16 s → c.mode = .ecb →
        ∃ m, exec .aesDec s = .next { s with mem := m, res := s.a2 } ∧
          (∀ n, n < s.a2.toNat / 16 →
            m.readBlock s.a0.toNat n = decryptBlock c.dk (s.mem.readBlock s.a1.toNat n)) ∧
          SameOutside s.mem m s.a0.toNat s.a2.toNat) ∧
      (∀ iv, BlockOperandsGood 16 s → c.mode = .cbc → c.iv = some iv →
        ∃ m, exec .aesDec s = .next { s with mem := m, res := s.a2 } ∧
          (∀ n, n < s.a2.toNat / 16 →
            m.readBlock s.a0.toNat n =
              (decryptBlock c.dk (s.mem.readBlock s.a1.toNat n)).xor
                (if n = 0 then iv else s.mem.readBlock s.a1.toNat (n - 1))) ∧
          SameOutside s.mem m s.a0.toNat s.a2.toNat)

/-- Derived (43_aes_cipher.md section 6, R220, which the spec marks as derived): AES.ENC then AES.DEC of the result, with the same
context and into any legal buffer, gives the plaintext, in ECB and in CBC. -/
def Obligations.AesCommandRoundTrip : Prop :=
  ∀ (s t : State) (c : AesContext) (d : Word), s.aes = some c → c.dk = invKeySchedule c.ek →
    exec .aesEnc s = .next t → t.fault = false →
    d ≠ 0 → d.toNat + s.a2.toNat ≤ s.params.memSize →
    (d = s.a0 ∨ d.toNat + s.a2.toNat ≤ s.a0.toNat ∨ s.a0.toNat + s.a2.toNat ≤ d.toNat) →
    ∃ u, exec .aesDec { t with a0 := d, a1 := s.a0 } = .next u ∧ u.fault = false ∧ u.res = s.a2 ∧
      ∀ k, k < s.a2.toNat → u.mem.read (d.toNat + k) = s.mem.read (s.a1.toNat + k)

/-- Derived (43_aes_cipher.md section 6, R221, which the spec marks as derived; 10_state.md R39): what AES.ENC and AES.DEC write is a
function of the context and the source buffer: two states that agree on those, on the operands and on MEM_SIZE get the same
output, whatever else memory and the other units hold and whatever RC4_IJ_PERSIST is. -/
def Obligations.AesOutputFromContextAndSourceOnly : Prop :=
  ∀ (i : Instr) (s1 s2 t1 t2 : State), i = .aesEnc ∨ i = .aesDec →
    s1.fault = false → s2.fault = false → s1.aes = s2.aes → s1.params.memSize = s2.params.memSize →
    s1.a0 = s2.a0 → s1.a1 = s2.a1 → s1.a2 = s2.a2 →
    (∀ k, k < s1.a2.toNat → s1.mem.read (s1.a1.toNat + k) = s2.mem.read (s1.a1.toNat + k)) →
    exec i s1 = .next t1 → exec i s2 = .next t2 → t1.fault = false →
    t2.fault = false ∧ t1.res = t2.res ∧ t1.aes = s1.aes ∧ t2.aes = s2.aes ∧
      ∀ k, k < s1.a2.toNat → t1.mem.read (s1.a0.toNat + k) = t2.mem.read (s1.a0.toNat + k)

/-- 42_aes_key_schedule.md R197: AES.ISINIT writes the bit STATUS.AES_INIT, 1 when AES.Mode != 0, to RES and nothing else. -/
def Obligations.AesIsInitRule : Prop :=
  encode .aesIsInit = 0x00000033 ∧
  ∀ s : State, exec .aesIsInit s = .next { s with res := if s.status.extractLsb' 2 1 = 1 then 1 else 0 } ∧
    (s.status.extractLsb' 2 1 = 1 ↔ s.aesMode ≠ 0)

/-- 70_reset_and_hazards.md R305: a recoverable failure of AES.INIT or BF.INIT un-initializes the unit: the next ENC or DEC of it,
whatever its operands, raises UNINIT; and so does an ENC or DEC of a unit that was never initialized. -/
def Obligations.UninitializedUnitsFault : Prop :=
  (∀ (s : State), s.rc4Init = false → FaultsWith .rc4Enc s 0x02 0x21 ∧ FaultsWith .rc4Dec s 0x02 0x22) ∧
  (∀ (s : State), s.aesInit = false → FaultsWith .aesEnc s 0x02 0x31 ∧ FaultsWith .aesDec s 0x02 0x32) ∧
  (∀ (s : State), s.bfInit = false → FaultsWith .bfEnc s 0x02 0x41 ∧ FaultsWith .bfDec s 0x02 0x42) ∧
  (∀ (s t : State) (mode : ModeField), s.fault = false → exec (.aesInit mode) s = .next t → t.fault = false → t.res = 0 →
    t.aesInit = false) ∧
  (∀ (s t : State), s.fault = false → exec .bfInit s = .next t → t.fault = false → t.res = 0 → t.bfInit = false)

/-! ## Blowfish -/

/-- Derived (44_blowfish.md section 1, R241 and R242, whose claim that the two forms give the same result the spec marks as
derived): the round function and the encryption of a block, in the published form and in the source's form with P[0] before
the rounds. -/
def Obligations.BfEncryptBlockForms : Prop :=
  ∀ (c : BfContext) (L R : Word),
    let F := fun x : Word =>
      ((entry c.s[0] (x.extractLsb' 24 8) + entry c.s[1] (x.extractLsb' 16 8)) ^^^ entry c.s[2] (x.extractLsb' 8 8))
        + entry c.s[3] (x.extractLsb' 0 8)
    (∃ l r : Nat → Word, l 0 = L ∧ r 0 = R ∧
      (∀ (i : Nat) (hi : i < 16), r (i + 1) = l i ^^^ c.p[i] ∧ l (i + 1) = r i ^^^ F (l i ^^^ c.p[i])) ∧
      bfEncryptBlock c (L, R) = (r 16 ^^^ c.p[17], l 16 ^^^ c.p[16])) ∧
    (∃ l r : Nat → Word, l 0 = L ^^^ c.p[0] ∧ r 0 = R ∧
      (∀ (i : Nat) (hi : i < 16), r (i + 1) = l i ∧ l (i + 1) = r i ^^^ F (l i) ^^^ c.p[i + 1]) ∧
      bfEncryptBlock c (L, R) = (r 16 ^^^ c.p[17], l 16))

/-- 44_blowfish.md R243: decryption is encryption with P[17 - i] for P[i], and undoes encryption, for every P, S, L and R. -/
def Obligations.BfDecryptBlockUndoesEncrypt : Prop :=
  ∀ (c : BfContext) (lr : Word × Word),
    bfDecryptBlock c lr = bfEncryptBlock { c with p := Vector.ofFn fun i => c.p[17 - i.val] } lr ∧
    bfDecryptBlock c (bfEncryptBlock c lr) = lr

/-- 12_rom_blowfish.md R82 and R83: the checks and examples the spec gives for the P-array and for each S-box, the xor of all
entries and their sum modulo 2^32; and, from its section's end, the same over all 1042 words in order. -/
def Obligations.BlowfishConstantsMeetTheChecks : Prop :=
  let checks := fun (words : List Word) (x sum : Word) => words.foldl (· ^^^ ·) 0 = x ∧ words.foldl (· + ·) 0 = sum
  checks bfPInit.toList 0xb73ad7ea 0x8e4d14cc ∧
  checks bfSInit[0].toList 0x4eb4db7f 0x4b745115 ∧ checks bfSInit[1].toList 0xc727e122 0x72ff37b2 ∧
  checks bfSInit[2].toList 0x462a5d01 0x2ac02b91 ∧ checks bfSInit[3].toList 0x1779e2bc 0xf43e3a88 ∧
  checks (bfPInit.toList ++ bfSInit[0].toList ++ bfSInit[1].toList ++ bfSInit[2].toList ++ bfSInit[3].toList)
    0x6ffa520a 0x6bbf03ac ∧
  bfPInit[0] = 0x243f6a88 ∧ bfPInit[17] = 0x8979fb1b ∧ bfSInit[0][0] = 0xd1310ba6 ∧ bfSInit[1][0] = 0x4b7a70e9 ∧
  bfSInit[2][0] = 0xe93d5a68 ∧ bfSInit[3][0] = 0x3a39ce37 ∧ bfSInit[3][255] = 0x3ac372e6

/-- 44_blowfish.md R244 and R245: the scheduler starts from the constants and xors the key into the P-array, the key byte position
running on from word to word and wrapping at the key length. -/
def Obligations.BfKeyXorRule : Prop :=
  (bfConstants.p = bfPInit ∧ bfConstants.s = bfSInit) ∧
  ∀ (key : Nat → Byte) (len : Nat) (c : BfContext) (j : Nat → Nat), 0 < len → j 0 = 0 →
    (∀ i, j (i + 1) = (j i + 4) % len) →
    (bfKeyXor key len c).s = c.s ∧
    ∀ (i : Nat) (hi : i < 18), (bfKeyXor key len c).p[i] =
      c.p[i] ^^^ be32 (key (j i)) (key ((j i + 1) % len)) (key ((j i + 2) % len)) (key ((j i + 3) % len))

/-- 44_blowfish.md R246: the bootstrap is 521 encryptions, each of the output of the one before, with the context as the writes
so far left it, over the P-array and then the S-boxes in order. -/
def Obligations.BfBootstrapRule : Prop :=
  ∀ c : BfContext, ∃ (k : Nat → BfContext) (y : Nat → Word × Word), k 0 = c ∧ y 0 = (0, 0) ∧
    (∀ n, n < 521 → y (n + 1) = bfEncryptBlock (k n) (y n) ∧ k (n + 1) = bfWritePair (k n) n (y (n + 1))) ∧
    bfBootstrap c = k 521

/-- 44_blowfish.md R247: BF.INIT, its faults in order, the recoverable failure, and the scheduled context. -/
def Obligations.BfInitRule : Prop :=
  encode .bfInit = 0x00000040 ∧ ∀ s : State,
    (s.a0 = 0 → FaultsWith .bfInit s 0x03 0x40) ∧
    (s.a0 ≠ 0 → s.a1 = 0 ∨ 56 < s.a1.toNat → exec .bfInit s = .next { s with bf := none, res := 0 }) ∧
    (s.a0 ≠ 0 → s.a1 ≠ 0 → s.a1.toNat ≤ 56 → s.params.memSize < s.a0.toNat + s.a1.toNat →
      FaultsWith .bfInit s 0x08 0x40) ∧
    (s.a0 ≠ 0 → s.a1 ≠ 0 → s.a1.toNat ≤ 56 → s.a0.toNat + s.a1.toNat ≤ s.params.memSize →
      exec .bfInit s = .next { s with
        bf := some (bfBootstrap (bfKeyXor (fun k => s.mem.read (s.a0.toNat + k)) s.a1.toNat bfConstants)), res := 1 })

/-- 44_blowfish.md R251 and R252: BF.ENC and BF.DEC, their five faults in order, and the blocks they write, each from
the source block as it stood before the command; nothing but the destination bytes changes. -/
def Obligations.BfEncDecRule : Prop :=
  encode .bfEnc = 0x00000041 ∧ encode .bfDec = 0x00000042 ∧ ∀ (s : State) (i : Instr) (opc : Byte) (f : BfContext → Word × Word → Word × Word),
    (i = .bfEnc ∧ opc = 0x41 ∧ f = bfEncryptBlock) ∨ (i = .bfDec ∧ opc = 0x42 ∧ f = bfDecryptBlock) →
    (s.bf = none → FaultsWith i s 0x02 opc) ∧
    ∀ c, s.bf = some c →
      BlockOperandFaults i opc 8 s ∧
      (BlockOperandsGood 8 s →
        ∃ m, exec i s = .next { s with mem := m } ∧
          (∀ n, n < s.a2.toNat / 8 →
            (m.readWord (s.a0.toNat + 8 * n), m.readWord (s.a0.toNat + 8 * n + 4)) =
              f c (s.mem.readWord (s.a1.toNat + 8 * n), s.mem.readWord (s.a1.toNat + 8 * n + 4))) ∧
          SameOutside s.mem m s.a0.toNat s.a2.toNat)

/-- Derived (44_blowfish.md section 6, R253, which the spec marks as derived): BF.ENC then BF.DEC of the result, with the same
context and into any legal buffer, gives the plaintext. -/
def Obligations.BfCommandRoundTrip : Prop :=
  ∀ (s t : State) (d : Word), exec .bfEnc s = .next t → t.fault = false →
    d ≠ 0 → d.toNat + s.a2.toNat ≤ s.params.memSize →
    (d = s.a0 ∨ d.toNat + s.a2.toNat ≤ s.a0.toNat ∨ s.a0.toNat + s.a2.toNat ≤ d.toNat) →
    ∃ u, exec .bfDec { t with a0 := d, a1 := s.a0 } = .next u ∧ u.fault = false ∧ u.res = s.res ∧
      ∀ k, k < s.a2.toNat → u.mem.read (d.toNat + k) = s.mem.read (s.a1.toNat + k)

/-! ## Command scripts -/

/-- Derived (30_encoding.md section 5, R126; 20_memory.md section 1, R91): the line of a command, AES.INIT in each of its four
modes, stands for the writes of its operands, numbers or symbols, in order, and then the write of its word to CMD. That NULL, by
R91 address 0, is a symbol of every script and so may stand for any operand is the model's choice (log entry 18, DESIGN CHOICE):
R126 writes it for the iv of AES.INIT only. -/
def Obligations.CommandLineActions : Prop :=
  ([Instr.pkcs5PadLen, .pkcs5Pad, .pkcs5UnpadLen, .pkcs5ChkLen, .rc4Init, .rc4Enc, .rc4Dec, .aesEnc, .aesDec, .aesIsInit,
    .bfInit, .bfEnc, .bfDec].map operandCount = [2, 3, 2, 2, 2, 2, 2, 3, 3, 0, 2, 3, 3]) ∧
  (∀ mode, operandCount (.aesInit mode) = 3) ∧
  startSymbols.lookup "NULL" = some 0 ∧
  ∀ (syms : Symbols) (i : Instr) (os : List Operand) (vs : List Word), vs.length = operandCount i →
    List.Forall₂ (fun o v => o = .num v.toNat ∨ ∃ name, o = .sym name ∧ syms.lookup name = some v.toNat) os vs →
    lineActions syms (.cmd i os) =
      some ((vs.zipIdx 1).map (fun vk => HostAction.writeReg vk.2 vk.1) ++ [.writeReg 0 (encode i)])

/-- 30_encoding.md R127: the pseudo-instructions and directives and what they stand for. -/
def Obligations.PseudoLineActions : Prop :=
  encode (.aesInit .ecb) = 0x00000130 ∧ encode (.aesInit .cbc) = 0x00000230 ∧
  ∀ (syms : Symbols) (iv key len : Operand) (n : Fin 3) (v : Word) (a : Word) (bytes : List Byte) (name : String) (x : Nat),
    lineActions syms (.aesInitEcb iv key len) = lineActions syms (.cmd (.aesInit .ecb) [iv, key, len]) ∧
    lineActions syms (.aesInitCbc iv key len) = lineActions syms (.cmd (.aesInit .cbc) [iv, key, len]) ∧
    lineActions syms (.rc4Crypt iv len) = lineActions syms (.cmd .rc4Enc [iv, len]) ∧
    lineActions syms (.set n (.num v.toNat)) = some [.writeReg (n.val + 1) v] ∧
    lineActions syms (.raw (.num v.toNat)) = some [.writeReg 0 v] ∧
    lineActions syms (.mem (.num a.toNat) bytes) =
      some ((bytes.zipIdx a.toNat).map fun bk => HostAction.writeMem bk.2 bk.1) ∧
    (lineActions syms (.equ name x) = some [] ∧
      (syms.lookup name = none → (lineSymbols syms (.equ name x)).lookup name = some x)) ∧
    lineActions syms .reset = some [.reset]

/-- Derived (30_encoding.md section 7, R131, and section 5): a script's actions are those of its first line and then those of the
others, under the symbols after that line; running a script is running its actions in order, one step each; and where the
script's first lines lead to t, the whole script is the run of its other lines' actions from t. The model's choices here: the
host's actions as a list run one per step (log entry 1), a script without actions where a line has none (log entry 9), no use of
a symbol before its `.equ` (log entry 16), and a definition that replaces an earlier one of the same name (log entry 17). -/
def Obligations.ScriptRunsInOrder : Prop :=
  (∀ syms, scriptActions syms [] = some []) ∧
  (∀ syms l ls, scriptActions syms (l :: ls) =
    (lineActions syms l).bind fun here => (scriptActions (lineSymbols syms l) ls).map fun rest => here ++ rest) ∧
  (∀ syms l, (∀ name x, l ≠ .equ name x) → lineSymbols syms l = syms) ∧
  (∀ syms name x, (lineSymbols syms (.equ name x)).lookup name = some x ∧
    ∀ other, other ≠ name → (lineSymbols syms (.equ name x)).lookup other = syms.lookup other) ∧
  (∀ (s : State) script actions, scriptActions startSymbols script = some actions →
    s.withScript script = some { s with host := actions } ∧
    s.runScript script = some (runActions actions.length { s with host := actions })) ∧
  (∀ (s : State) script, scriptActions startSymbols script = none → s.withScript script = none ∧ s.runScript script = none) ∧
  (∀ (s t : State) (xs ys : List HostAction), runActions xs.length { s with host := xs } = .next t →
    t.host = [] ∧
    runActions (xs ++ ys).length { s with host := xs ++ ys } = runActions ys.length { t with host := ys }) ∧
  (∀ (s t : State) (xs ys : List ScriptLine) (actions : List HostAction), s.runScript xs = some (.next t) →
    scriptActions (xs.foldl lineSymbols startSymbols) ys = some actions →
    t.host = [] ∧ s.runScript (xs ++ ys) = some (runActions actions.length { t with host := actions }))
end

