-- ==== Sys2Proof/Laws/Decode.lean ====
section
/-! SUPPORT. The fields of a command word, and what the table of opcodes answers for each. -/

namespace Sys2Proof

/-- A word is its three fields. -/
theorem word_of_fields (w : Word) : w = zeroField w ++ modeField w ++ opcField w := by
  unfold zeroField modeField opcField
  apply BitVec.eq_of_getLsbD_eq
  intro i hi
  simp only [BitVec.getLsbD_append, BitVec.getLsbD_extractLsb']
  grind

theorem opcField_append (z : BitVec 22) (m : BitVec 2) (o : Byte) : opcField (z ++ m ++ o) = o := by
  unfold opcField
  ext i hi
  simp only [BitVec.getElem_extractLsb', BitVec.getLsbD_append]
  grind

theorem modeField_append (z : BitVec 22) (m : BitVec 2) (o : Byte) : modeField (z ++ m ++ o) = m := by
  unfold modeField
  ext i hi
  simp only [BitVec.getElem_extractLsb', BitVec.getLsbD_append]
  grind

theorem zeroField_append (z : BitVec 22) (m : BitVec 2) (o : Byte) : zeroField (z ++ m ++ o) = z := by
  unfold zeroField
  ext i hi
  simp only [BitVec.getElem_extractLsb', BitVec.getLsbD_append]
  grind

theorem ModeField.bits_ofBits (m : BitVec 2) : (ModeField.ofBits m).bits = m := by
  revert m
  decide

theorem ModeField.ofBits_bits (m : ModeField) : ModeField.ofBits m.bits = m := by cases m <;> rfl

/-- The command found for an OPC byte has that OPC byte, and the given MODE where it is AES.INIT. -/
theorem commandOf_fields : ∀ (o : Byte) (m : BitVec 2), ∀ i ∈ commandOf o m,
    opcOf i = o ∧ (o = 0x30 → modeOf i = m) ∧ (o ≠ 0x30 → modeOf i = 0) := by
  decide +kernel

/-- A command is found exactly for the listed OPC bytes. -/
theorem commandOf_isSome : ∀ (o : Byte) (m : BitVec 2), (commandOf o m).isSome = opcListed o := by
  decide +kernel

end Sys2Proof
end

