-- ==== Sys2Proof/Laws/Field.lean ====
section
/-! SUPPORT. The field arithmetic of spec/11 R61: xtime and gmul are linear, gmul is commutative and
associative, and 1 is its unit. -/

namespace Sys2Proof.Machine

open Sys2Proof

/-- A byte that is there or not: what one step of gmul adds. -/
def keepIf (c : Bool) (a : Byte) : Byte := if c then a else 0

theorem keepIf_xor_bool (c d : Bool) (a : Byte) : keepIf (c ^^ d) a = keepIf c a ^^^ keepIf d a := by
  cases c <;> cases d <;> simp [keepIf]

theorem keepIf_xor_byte (c : Bool) (a b : Byte) : keepIf c (a ^^^ b) = keepIf c a ^^^ keepIf c b := by
  cases c <;> simp [keepIf]

theorem xor_if (c : Bool) (r a : Byte) : (if c = true then r ^^^ a else r) = r ^^^ keepIf c a := by
  cases c <;> simp [keepIf]

theorem xtime_eq (a : Byte) : xtime a = (a <<< 1) ^^^ keepIf a.msb 0x1b := by
  cases h : a.msb <;> simp [xtime, keepIf, h]

theorem xtime_xor (a b : Byte) : xtime (a ^^^ b) = xtime a ^^^ xtime b := by
  simp only [xtime_eq, BitVec.msb_xor, keepIf_xor_bool, BitVec.shiftLeft_xor_distrib]
  ac_rfl

/-- The eight steps of gmul written out. -/
theorem gmul_eq (a b : Byte) :
    gmul a b = keepIf (b.getLsbD 0) a ^^^ keepIf (b.getLsbD 1) (xtime a) ^^^ keepIf (b.getLsbD 2) (xtime (xtime a)) ^^^
      keepIf (b.getLsbD 3) (xtime (xtime (xtime a))) ^^^ keepIf (b.getLsbD 4) (xtime (xtime (xtime (xtime a)))) ^^^
      keepIf (b.getLsbD 5) (xtime (xtime (xtime (xtime (xtime a))))) ^^^
      keepIf (b.getLsbD 6) (xtime (xtime (xtime (xtime (xtime (xtime a)))))) ^^^
      keepIf (b.getLsbD 7) (xtime (xtime (xtime (xtime (xtime (xtime (xtime a))))))) := by
  simp only [gmul, Nat.fold, xor_if]
  simp

theorem gmul_xor_right (a b c : Byte) : gmul a (b ^^^ c) = gmul a b ^^^ gmul a c := by
  simp only [gmul_eq, BitVec.getLsbD_xor, keepIf_xor_bool]
  ac_rfl

theorem gmul_xor_left (a b c : Byte) : gmul (a ^^^ b) c = gmul a c ^^^ gmul b c := by
  simp only [gmul_eq, xtime_xor, keepIf_xor_byte]
  ac_rfl

/-- What holds of 0 and of the eight powers of 2 and is kept by xor holds of every byte. -/
theorem byte_span (P : Byte → Prop) (zero : P 0) (xor : ∀ a b, P a → P b → P (a ^^^ b))
    (one : ∀ k, k < 8 → P (BitVec.twoPow 8 k)) (a : Byte) : P a := by
  have bits : ∀ a : Byte, a =
      keepIf (a.getLsbD 0) 1 ^^^ keepIf (a.getLsbD 1) 2 ^^^ keepIf (a.getLsbD 2) 4 ^^^ keepIf (a.getLsbD 3) 8 ^^^
      keepIf (a.getLsbD 4) 16 ^^^ keepIf (a.getLsbD 5) 32 ^^^ keepIf (a.getLsbD 6) 64 ^^^ keepIf (a.getLsbD 7) 128 := by
    decide +kernel
  have keep : ∀ (c : Bool) (b : Byte), P b → P (keepIf c b) := fun c b hb => by cases c <;> assumption
  rw [bits a]
  exact xor _ _ (xor _ _ (xor _ _ (xor _ _ (xor _ _ (xor _ _ (xor _ _ (keep _ _ (one 0 (by decide)))
    (keep _ _ (one 1 (by decide)))) (keep _ _ (one 2 (by decide)))) (keep _ _ (one 3 (by decide))))
    (keep _ _ (one 4 (by decide)))) (keep _ _ (one 5 (by decide)))) (keep _ _ (one 6 (by decide))))
    (keep _ _ (one 7 (by decide)))

theorem gmul_zero_left (b : Byte) : gmul 0 b = 0 := by
  simpa using gmul_xor_left 0 0 b

theorem gmul_zero_right (a : Byte) : gmul a 0 = 0 := by
  simpa using gmul_xor_right a 0 0

theorem gmul_one_right (a : Byte) : gmul a 1 = a := by
  simp [gmul_eq, keepIf]

theorem gmul_comm (a b : Byte) : gmul a b = gmul b a := by
  refine byte_span (fun a => gmul a b = gmul b a) ?_ (fun x y hx hy => ?_) (fun k hk => ?_) a
  · simp only [gmul_zero_left, gmul_zero_right]
  · simp only [gmul_xor_left, gmul_xor_right, hx, hy]
  · refine byte_span (fun b => gmul (BitVec.twoPow 8 k) b = gmul b (BitVec.twoPow 8 k)) ?_ (fun x y hx hy => ?_) ?_ b
    · simp only [gmul_zero_left, gmul_zero_right]
    · simp only [gmul_xor_left, gmul_xor_right, hx, hy]
    · revert k; decide +kernel

theorem gmul_one_left (a : Byte) : gmul 1 a = a := by rw [gmul_comm, gmul_one_right]

theorem gmul_assoc (a b c : Byte) : gmul (gmul a b) c = gmul a (gmul b c) := by
  refine byte_span (fun a => gmul (gmul a b) c = gmul a (gmul b c)) ?_ (fun x y hx hy => ?_) (fun i hi => ?_) a
  · simp only [gmul_zero_left]
  · simp only [gmul_xor_left, hx, hy]
  · refine byte_span (fun b => gmul (gmul _ b) c = gmul _ (gmul b c)) ?_ (fun x y hx hy => ?_) (fun j hj => ?_) b
    · simp only [gmul_zero_left, gmul_zero_right]
    · simp only [gmul_xor_left, gmul_xor_right, hx, hy]
    · refine byte_span (fun c => gmul (gmul _ _) c = gmul _ (gmul _ c)) ?_ (fun x y hx hy => ?_) ?_ c
      · simp only [gmul_zero_right]
      · simp only [gmul_xor_right, hx, hy]
      · revert i j; decide +kernel

end Sys2Proof.Machine
end

