-- ==== Sys2Proof/Laws/Memory.lean ====
section
/-! SUPPORT. What the memory operations do: a read after a write, the bytes a multi-byte write changes, the canonical form
every write keeps, and words and blocks read back from where they were stored. -/

namespace Sys2Proof.Machine

open Sys2Proof

/-! One byte. -/

theorem Memory.read_erase (m : Memory) (a c : Nat) :
    (Memory.erase m a).read c = if c = a then unlistedByte else m.read c := by
  induction m with
  | nil => simp [Memory.erase, Memory.read]
  | cons e rest ih =>
    obtain ⟨b, v⟩ := e
    by_cases hab : a = b
    · subst hab
      by_cases hca : c = a
      · subst hca
        simpa [Memory.erase] using ih
      · simpa [Memory.erase, Memory.read, hca] using ih
    · by_cases hcb : c = b
      · subst hcb
        have : ¬ c = a := fun h => hab h.symm
        simp [Memory.erase, Memory.read, hab, this]
      · simp [Memory.erase, Memory.read, hab, hcb, ih]

theorem Memory.read_insert (m : Memory) (a c : Nat) (v : Byte) :
    (Memory.insert m a v).read c = if c = a then v else m.read c := by
  induction m with
  | nil => simp [Memory.insert, Memory.read]
  | cons e rest ih =>
    obtain ⟨b, u⟩ := e
    by_cases hlt : a < b
    · simp [Memory.insert, Memory.read, hlt]
    · by_cases hab : a = b
      · subst hab
        by_cases hca : c = a <;> simp [Memory.insert, Memory.read, hca]
      · by_cases hcb : c = b
        · subst hcb
          have : ¬ c = a := fun h => hab h.symm
          simp [Memory.insert, Memory.read, hlt, hab, this]
        · simp [Memory.insert, Memory.read, hlt, hab, hcb, ih]

/-- A read after a write: the value written there, every other byte as before. -/
theorem Memory.read_write (m : Memory) (a c : Nat) (v : Byte) :
    (m.write a v).read c = if c = a then v else m.read c := by
  unfold Memory.write
  split
  · next h => rw [Memory.read_erase, h]
  · exact Memory.read_insert m a c v

theorem Memory.read_write_self (m : Memory) (a : Nat) (v : Byte) : (m.write a v).read a = v := by
  simp [Memory.read_write]

theorem Memory.read_write_other {a c : Nat} (m : Memory) (v : Byte) (h : c ≠ a) : (m.write a v).read c = m.read c := by
  simp [Memory.read_write, h]

/-! The canonical form. -/

/-- Canonical: entries at strictly rising addresses, none with the value of an unlisted byte. -/
theorem Memory.wf_iff (m : Memory) :
    m.wf = true ↔ m.Pairwise (fun x y => x.1 < y.1) ∧ ∀ x ∈ m, x.2 ≠ unlistedByte := by
  induction m with
  | nil => simp [Memory.wf]
  | cons e rest ih =>
    obtain ⟨a, v⟩ := e
    cases rest with
    | nil => simp [Memory.wf]
    | cons f rest' =>
      obtain ⟨b, u⟩ := f
      simp only [Memory.wf, Bool.and_eq_true, decide_eq_true_eq, ih]
      constructor
      · rintro ⟨⟨hv, hab⟩, hp, hall⟩
        refine ⟨List.pairwise_cons.2 ⟨?_, hp⟩, ?_⟩
        · intro y hy
          rcases List.mem_cons.1 hy with rfl | hy'
          · exact hab
          · exact lt_trans hab ((List.pairwise_cons.1 hp).1 y hy')
        · intro x hx
          rcases List.mem_cons.1 hx with rfl | hx'
          · exact hv
          · exact hall x hx'
      · rintro ⟨hp, hall⟩
        have hp' := List.pairwise_cons.1 hp
        exact ⟨⟨hall _ (List.mem_cons_self ..), hp'.1 _ (List.mem_cons_self ..)⟩, hp'.2,
          fun x hx => hall x (List.mem_cons_of_mem _ hx)⟩

theorem Memory.mem_erase {m : Memory} {a : Nat} {x : Host.Cell} (h : x ∈ Memory.erase m a) : x ∈ m := by
  induction m with
  | nil => simp [Memory.erase] at h
  | cons e rest ih =>
    obtain ⟨b, v⟩ := e
    simp only [Memory.erase] at h
    split at h
    · exact List.mem_cons_of_mem _ (ih h)
    · rcases List.mem_cons.1 h with rfl | h'
      · exact List.mem_cons_self ..
      · exact List.mem_cons_of_mem _ (ih h')

theorem Memory.mem_insert {m : Memory} {a : Nat} {v : Byte} {x : Host.Cell} (h : x ∈ Memory.insert m a v) :
    x = (a, v) ∨ x ∈ m := by
  induction m with
  | nil => simpa [Memory.insert] using h
  | cons e rest ih =>
    obtain ⟨b, u⟩ := e
    simp only [Memory.insert] at h
    split at h
    · exact List.mem_cons.1 h
    · split at h
      · rcases List.mem_cons.1 h with h' | h'
        · exact .inl h'
        · exact .inr (List.mem_cons_of_mem _ h')
      · rcases List.mem_cons.1 h with h' | h'
        · exact .inr (h' ▸ List.mem_cons_self ..)
        · exact (ih h').imp id (List.mem_cons_of_mem _)

theorem Memory.wf_erase {m : Memory} (h : m.wf = true) (a : Nat) : (Memory.erase m a).wf = true := by
  rw [Memory.wf_iff] at h ⊢
  refine ⟨?_, fun x hx => h.2 x (Memory.mem_erase hx)⟩
  have hp := h.1
  clear h
  induction m with
  | nil => simp [Memory.erase]
  | cons e rest ih =>
    obtain ⟨b, v⟩ := e
    have hp' := List.pairwise_cons.1 hp
    simp only [Memory.erase]
    split
    · exact ih hp'.2
    · exact List.pairwise_cons.2 ⟨fun y hy => hp'.1 y (Memory.mem_erase hy), ih hp'.2⟩

theorem Memory.wf_insert {m : Memory} (h : m.wf = true) (a : Nat) {v : Byte} (hv : v ≠ unlistedByte) :
    (Memory.insert m a v).wf = true := by
  rw [Memory.wf_iff] at h ⊢
  refine ⟨?_, ?_⟩
  · have hp := h.1
    clear h
    induction m with
    | nil => simp [Memory.insert]
    | cons e rest ih =>
      obtain ⟨b, u⟩ := e
      have hp' := List.pairwise_cons.1 hp
      simp only [Memory.insert]
      split
      · next hab =>
        refine List.pairwise_cons.2 ⟨?_, hp⟩
        intro y hy
        rcases List.mem_cons.1 hy with rfl | hy'
        · exact hab
        · exact lt_trans hab (hp'.1 y hy')
      · split
        · next _ hab => exact List.pairwise_cons.2 ⟨fun y hy => hab ▸ hp'.1 y hy, hp'.2⟩
        · next hlt hab =>
          refine List.pairwise_cons.2 ⟨?_, ih hp'.2⟩
          intro y hy
          rcases Memory.mem_insert hy with rfl | hy'
          · show b < a
            omega
          · exact hp'.1 y hy'
  · intro x hx
    rcases Memory.mem_insert hx with rfl | hx'
    · exact hv
    · exact h.2 x hx'

/-- Every write keeps the canonical form. -/
theorem Memory.wf_write {m : Memory} (h : m.wf = true) (a : Nat) (v : Byte) : (m.write a v).wf = true := by
  unfold Memory.write
  split
  · exact Memory.wf_erase h a
  · next hv => exact Memory.wf_insert h a hv

theorem Memory.wf_writeBytes {m : Memory} (h : m.wf = true) (a : Nat) (vs : List Byte) : (m.writeBytes a vs).wf = true := by
  induction vs generalizing m a with
  | nil => exact h
  | cons v vs ih => exact ih (Memory.wf_write h a v) (a + 1)

theorem Memory.wf_writeWord {m : Memory} (h : m.wf = true) (a : Nat) (w : Word) : (m.writeWord a w).wf = true :=
  Memory.wf_writeBytes h a _

theorem Memory.wf_writeBlock {m : Memory} (h : m.wf = true) (d n : Nat) (y : Block) : (m.writeBlock d n y).wf = true :=
  Memory.wf_writeWord (Memory.wf_writeWord (Memory.wf_writeWord (Memory.wf_writeWord h _ _) _ _) _ _) _ _

theorem Memory.wf_writeHalves {m : Memory} (h : m.wf = true) (d n : Nat) (y : Word × Word) :
    (m.writeHalves d n y).wf = true :=
  Memory.wf_writeWord (Memory.wf_writeWord h _ _) _ _

/-! Bytes below the memory size. -/

theorem Memory.below_iff (m : Memory) (n : Nat) : m.below n = true ↔ ∀ x ∈ m, x.1 < n := by
  simp [Memory.below]

theorem Memory.below_write {m : Memory} {n a : Nat} (h : m.below n = true) (ha : a < n) (v : Byte) :
    (m.write a v).below n = true := by
  rw [Memory.below_iff] at h ⊢
  unfold Memory.write
  intro x hx
  split at hx
  · exact h x (Memory.mem_erase hx)
  · rcases Memory.mem_insert hx with rfl | hx'
    · exact ha
    · exact h x hx'

theorem Memory.below_writeBytes {m : Memory} {n a : Nat} (h : m.below n = true) (vs : List Byte) (ha : a + vs.length ≤ n) :
    (m.writeBytes a vs).below n = true := by
  induction vs generalizing m a with
  | nil => exact h
  | cons v vs ih =>
    simp only [List.length_cons] at ha
    exact ih (Memory.below_write h (by omega) v) (by omega)

theorem Memory.below_writeWord {m : Memory} {n a : Nat} (h : m.below n = true) (ha : a + 4 ≤ n) (w : Word) :
    (m.writeWord a w).below n = true :=
  Memory.below_writeBytes h (bytesBe w) ha

theorem Memory.below_writeBlock {m : Memory} {size d n : Nat} (h : m.below size = true) (ha : d + 16 * n + 16 ≤ size)
    (y : Block) : (m.writeBlock d n y).below size = true := by
  unfold Memory.writeBlock
  exact Memory.below_writeWord (Memory.below_writeWord (Memory.below_writeWord
    (Memory.below_writeWord h (by omega) _) (by omega) _) (by omega) _) (by omega) _

theorem Memory.below_writeHalves {m : Memory} {size d n : Nat} (h : m.below size = true) (ha : d + 8 * n + 8 ≤ size)
    (y : Word × Word) : (m.writeHalves d n y).below size = true := by
  unfold Memory.writeHalves
  exact Memory.below_writeWord (Memory.below_writeWord h (by omega) _) (by omega) _

/-! Canonical memories that read alike are equal. -/

theorem Memory.read_of_lt_head {m : Memory} {a : Nat} (h : ∀ x ∈ m, a < x.1) : m.read a = unlistedByte := by
  induction m with
  | nil => rfl
  | cons e rest ih =>
    obtain ⟨b, v⟩ := e
    have hb : a < b := h _ (List.mem_cons_self ..)
    have : ¬ a = b := by omega
    simp only [Memory.read, this, if_false]
    exact ih fun x hx => h x (List.mem_cons_of_mem _ hx)

/-- Two canonical memories with the same bytes are the same list. -/
theorem Memory.ext_of_read {m n : Memory} (hm : m.wf = true) (hn : n.wf = true) (h : ∀ a, m.read a = n.read a) : m = n := by
  rw [Memory.wf_iff] at hm hn
  induction m generalizing n with
  | nil =>
    cases n with
    | nil => rfl
    | cons f nrest =>
      obtain ⟨b, u⟩ := f
      have := h b
      simp only [Memory.read, if_true] at this
      exact absurd this.symm (hn.2 _ (List.mem_cons_self ..))
  | cons e rest ih =>
    obtain ⟨a, v⟩ := e
    have hmp := List.pairwise_cons.1 hm.1
    have hv : v ≠ unlistedByte := hm.2 _ (List.mem_cons_self ..)
    have hra : Memory.read ((a, v) :: rest) a = v := by simp [Memory.read]
    cases n with
    | nil =>
      have := h a
      rw [hra] at this
      exact absurd this hv
    | cons f nrest =>
      obtain ⟨b, u⟩ := f
      have hnp := List.pairwise_cons.1 hn.1
      have hu : u ≠ unlistedByte := hn.2 _ (List.mem_cons_self ..)
      have hrb : Memory.read ((b, u) :: nrest) b = u := by simp [Memory.read]
      have hab : a = b := by
        rcases lt_trichotomy a b with hlt | heq | hgt
        · have h1 := h a
          rw [hra, Memory.read_of_lt_head (a := a)] at h1
          · exact absurd h1 hv
          · intro x hx
            rcases List.mem_cons.1 hx with rfl | hx'
            · exact hlt
            · exact lt_trans hlt (hnp.1 x hx')
        · exact heq
        · have h1 := h b
          rw [hrb, Memory.read_of_lt_head (a := b)] at h1
          · exact absurd h1.symm hu
          · intro x hx
            rcases List.mem_cons.1 hx with rfl | hx'
            · exact hgt
            · exact lt_trans hgt (hmp.1 x hx')
      subst hab
      have huv : v = u := by
        have h1 := h a
        rwa [hra, hrb] at h1
      subst huv
      congr 1
      refine ih ⟨hmp.2, fun x hx => hm.2 x (List.mem_cons_of_mem _ hx)⟩
        ⟨hnp.2, fun x hx => hn.2 x (List.mem_cons_of_mem _ hx)⟩ fun c => ?_
      by_cases hc : c = a
      · subst hc
        rw [Memory.read_of_lt_head fun x hx => hmp.1 x hx, Memory.read_of_lt_head fun x hx => hnp.1 x hx]
      · have h1 := h c
        simpa [Memory.read, hc] using h1

/-! Several bytes. -/

/-- What a multi-byte write changes: exactly its bytes. -/
theorem Memory.read_writeBytes (m : Memory) (a c : Nat) (vs : List Byte) :
    (m.writeBytes a vs).read c = if h : a ≤ c ∧ c < a + vs.length then vs[c - a]'(by omega) else m.read c := by
  induction vs generalizing m a with
  | nil =>
    have : ¬ (a ≤ c ∧ c < a + ([] : List Byte).length) := by simp
    rw [dif_neg this]
    rfl
  | cons v vs ih =>
    simp only [Memory.writeBytes, ih, List.length_cons]
    by_cases hc : c = a
    · subst hc
      simp [Memory.read_write]
    · by_cases hin : a + 1 ≤ c ∧ c < a + 1 + vs.length
      · have h2 : a ≤ c ∧ c < a + (vs.length + 1) := by omega
        rw [dif_pos hin, dif_pos h2]
        obtain ⟨k, rfl⟩ := Nat.exists_eq_add_of_le hin.1
        have e1 : a + 1 + k - (a + 1) = k := by omega
        have e2 : a + 1 + k - a = k + 1 := by omega
        simp [e1, e2]
      · have h2 : ¬ (a ≤ c ∧ c < a + (vs.length + 1)) := by omega
        rw [dif_neg hin, dif_neg h2, Memory.read_write_other m v hc]

theorem Memory.read_writeBytes_other {a c : Nat} (m : Memory) (vs : List Byte) (h : c < a ∨ a + vs.length ≤ c) :
    (m.writeBytes a vs).read c = m.read c := by
  rw [Memory.read_writeBytes, dif_neg (by omega)]

/-! Words. -/

theorem be32_bytes (w : Word) : be32 (byte0 w) (byte1 w) (byte2 w) (byte3 w) = w := by
  unfold be32 byte0 byte1 byte2 byte3
  ext i hi
  simp only [BitVec.getElem_append, BitVec.getElem_extractLsb']
  grind

theorem byte0_be32 (a b c d : Byte) : byte0 (be32 a b c d) = a := by
  unfold be32 byte0
  ext i hi
  simp only [BitVec.getElem_extractLsb', BitVec.getLsbD_append]
  grind

theorem byte1_be32 (a b c d : Byte) : byte1 (be32 a b c d) = b := by
  unfold be32 byte1
  ext i hi
  simp only [BitVec.getElem_extractLsb', BitVec.getLsbD_append]
  grind

theorem byte2_be32 (a b c d : Byte) : byte2 (be32 a b c d) = c := by
  unfold be32 byte2
  ext i hi
  simp only [BitVec.getElem_extractLsb', BitVec.getLsbD_append]
  grind

theorem byte3_be32 (a b c d : Byte) : byte3 (be32 a b c d) = d := by
  unfold be32 byte3
  ext i hi
  simp only [BitVec.getElem_extractLsb', BitVec.getLsbD_append]
  grind

theorem Memory.writeWord_eq (m : Memory) (a : Nat) (w : Word) :
    m.writeWord a w = (((m.write a (byte0 w)).write (a + 1) (byte1 w)).write (a + 2) (byte2 w)).write (a + 3) (byte3 w) := rfl

theorem Memory.read_writeWord_other {a c : Nat} (m : Memory) (w : Word) (h : c < a ∨ a + 4 ≤ c) :
    (m.writeWord a w).read c = m.read c :=
  Memory.read_writeBytes_other m _ (by simpa [bytesBe] using h)

/-- A word read back from where it was stored. -/
theorem Memory.readWord_writeWord_self (m : Memory) (a : Nat) (w : Word) : (m.writeWord a w).readWord a = w := by
  simp only [Memory.readWord, Memory.writeWord_eq, Memory.read_write]
  simp [be32_bytes]

theorem Memory.readWord_congr {m n : Memory} {a : Nat} (h : ∀ c, a ≤ c → c < a + 4 → m.read c = n.read c) :
    m.readWord a = n.readWord a := by
  unfold Memory.readWord
  rw [h a (by omega) (by omega), h (a + 1) (by omega) (by omega), h (a + 2) (by omega) (by omega),
    h (a + 3) (by omega) (by omega)]

theorem Memory.readWord_writeWord_other {a b : Nat} (m : Memory) (w : Word) (h : b + 4 ≤ a ∨ a + 4 ≤ b) :
    (m.writeWord a w).readWord b = m.readWord b :=
  Memory.readWord_congr fun c h1 h2 => Memory.read_writeWord_other m w (by omega)

/-- Bytes equal to those a word is made of. -/
theorem Memory.read_of_readWord {m n : Memory} {a : Nat} (h : m.readWord a = n.readWord a) {c : Nat} (h1 : a ≤ c)
    (h2 : c < a + 4) : m.read c = n.read c := by
  unfold Memory.readWord at h
  have e0 := congrArg byte0 h
  have e1 := congrArg byte1 h
  have e2 := congrArg byte2 h
  have e3 := congrArg byte3 h
  simp only [byte0_be32, byte1_be32, byte2_be32, byte3_be32] at e0 e1 e2 e3
  obtain rfl | rfl | rfl | rfl : c = a ∨ c = a + 1 ∨ c = a + 2 ∨ c = a + 3 := by omega
  · exact e0
  · exact e1
  · exact e2
  · exact e3

/-! AES blocks. -/

theorem Memory.read_writeBlock_other {d n c : Nat} (m : Memory) (y : Block) (h : c < d + 16 * n ∨ d + 16 * n + 16 ≤ c) :
    (m.writeBlock d n y).read c = m.read c := by
  unfold Memory.writeBlock
  rw [Memory.read_writeWord_other _ _ (by omega), Memory.read_writeWord_other _ _ (by omega),
    Memory.read_writeWord_other _ _ (by omega), Memory.read_writeWord_other _ _ (by omega)]

theorem Memory.readBlock_congr {m k : Memory} {a n : Nat}
    (h : ∀ c, a + 16 * n ≤ c → c < a + 16 * n + 16 → m.read c = k.read c) : m.readBlock a n = k.readBlock a n := by
  unfold Memory.readBlock
  rw [Memory.readWord_congr (n := k) (a := a + 16 * n) fun c h1 h2 => h c (by omega) (by omega),
    Memory.readWord_congr (n := k) (a := a + 16 * n + 4) fun c h1 h2 => h c (by omega) (by omega),
    Memory.readWord_congr (n := k) (a := a + 16 * n + 8) fun c h1 h2 => h c (by omega) (by omega),
    Memory.readWord_congr (n := k) (a := a + 16 * n + 12) fun c h1 h2 => h c (by omega) (by omega)]

/-- A block read back from where it was stored. -/
theorem Memory.readBlock_writeBlock_self (m : Memory) (d n : Nat) (y : Block) : (m.writeBlock d n y).readBlock d n = y := by
  unfold Memory.readBlock Memory.writeBlock
  simp only [Memory.readWord_writeWord_self]
  rw [Memory.readWord_writeWord_other _ _ (by omega), Memory.readWord_writeWord_other _ _ (by omega),
    Memory.readWord_writeWord_other _ _ (by omega), Memory.readWord_writeWord_self,
    Memory.readWord_writeWord_other _ _ (by omega), Memory.readWord_writeWord_other _ _ (by omega),
    Memory.readWord_writeWord_self, Memory.readWord_writeWord_other _ _ (by omega), Memory.readWord_writeWord_self]

theorem Memory.read_of_readBlock {m k : Memory} {a n c : Nat} (h : m.readBlock a n = k.readBlock a n) (h1 : a + 16 * n ≤ c)
    (h2 : c < a + 16 * n + 16) : m.read c = k.read c := by
  unfold Memory.readBlock at h
  simp only [Block.mk.injEq] at h
  obtain ⟨e0, e1, e2, e3⟩ := h
  rcases Nat.lt_or_ge c (a + 16 * n + 4) with hc | hc
  · exact Memory.read_of_readWord e0 h1 hc
  rcases Nat.lt_or_ge c (a + 16 * n + 8) with hc | hc
  · exact Memory.read_of_readWord e1 (by omega) (by omega)
  rcases Nat.lt_or_ge c (a + 16 * n + 12) with hc | hc
  · exact Memory.read_of_readWord e2 (by omega) (by omega)
  · exact Memory.read_of_readWord e3 (by omega) (by omega)

/-! Blowfish blocks. -/

theorem Memory.read_writeHalves_other {d n c : Nat} (m : Memory) (y : Word × Word)
    (h : c < d + 8 * n ∨ d + 8 * n + 8 ≤ c) : (m.writeHalves d n y).read c = m.read c := by
  unfold Memory.writeHalves
  rw [Memory.read_writeWord_other _ _ (by omega), Memory.read_writeWord_other _ _ (by omega)]

theorem Memory.readHalves_congr {m k : Memory} {a n : Nat}
    (h : ∀ c, a + 8 * n ≤ c → c < a + 8 * n + 8 → m.read c = k.read c) : m.readHalves a n = k.readHalves a n := by
  unfold Memory.readHalves
  rw [Memory.readWord_congr (n := k) (a := a + 8 * n) fun c h1 h2 => h c (by omega) (by omega),
    Memory.readWord_congr (n := k) (a := a + 8 * n + 4) fun c h1 h2 => h c (by omega) (by omega)]

/-- A block read back from where it was stored. -/
theorem Memory.readHalves_writeHalves_self (m : Memory) (d n : Nat) (y : Word × Word) :
    (m.writeHalves d n y).readHalves d n = y := by
  unfold Memory.readHalves Memory.writeHalves
  rw [Memory.readWord_writeWord_self, Memory.readWord_writeWord_other _ _ (by omega), Memory.readWord_writeWord_self]

theorem Memory.read_of_readHalves {m k : Memory} {a n c : Nat} (h : m.readHalves a n = k.readHalves a n)
    (h1 : a + 8 * n ≤ c) (h2 : c < a + 8 * n + 8) : m.read c = k.read c := by
  unfold Memory.readHalves at h
  simp only [Prod.mk.injEq] at h
  obtain ⟨e0, e1⟩ := h
  rcases Nat.lt_or_ge c (a + 8 * n + 4) with hc | hc
  · exact Memory.read_of_readWord e0 h1 hc
  · exact Memory.read_of_readWord e1 (by omega) (by omega)

end Sys2Proof.Machine
end

