-- ==== Sys2Proof/Laws/Loops.lean ====
section
/-! SUPPORT. What the byte and block loops do: for each loop one lemma that gives every block it writes, from the source as it
stood before the loop, and one for the bytes outside; and that the loops keep the canonical form and the memory size. -/

namespace Sys2Proof.Machine

open Sys2Proof

/-! Blowfish: 44 R251. -/

theorem bfMem_succ (f : Word × Word → Word × Word) (m : Memory) (d a n : Nat) :
    bfMem f m d a (n + 1) = (bfMem f m d a n).writeHalves d n (f ((bfMem f m d a n).readHalves a n)) := rfl

theorem bfMem_read_outside (f : Word × Word → Word × Word) (m : Memory) (d a n : Nat) {c : Nat}
    (h : c < d ∨ d + 8 * n ≤ c) : (bfMem f m d a n).read c = m.read c := by
  induction n with
  | zero => rfl
  | succ n ih => rw [bfMem_succ, Memory.read_writeHalves_other _ _ (by omega), ih (by omega)]

/-- Every block is the transform of the source block as it stood before the loop, in place or disjoint (20 R100). -/
theorem bfMem_block (f : Word × Word → Word × Word) (m : Memory) (d a : Nat) {k n : Nat} (hk : k < n)
    (h : d = a ∨ d + 8 * n ≤ a ∨ a + 8 * n ≤ d) : (bfMem f m d a n).readHalves d k = f (m.readHalves a k) := by
  induction n with
  | zero => omega
  | succ n ih =>
    rw [bfMem_succ]
    by_cases hkn : k = n
    · subst hkn
      rw [Memory.readHalves_writeHalves_self]
      congr 1
      exact Memory.readHalves_congr fun c h1 h2 => bfMem_read_outside f m d a k (by omega)
    · rw [← ih (by omega) (by omega)]
      exact Memory.readHalves_congr fun c h1 h2 => Memory.read_writeHalves_other _ _ (by omega)

theorem bfMem_wf (f : Word × Word → Word × Word) {m : Memory} (d a n : Nat) (h : m.wf = true) :
    (bfMem f m d a n).wf = true := by
  induction n with
  | zero => exact h
  | succ n ih => rw [bfMem_succ]; exact Memory.wf_writeHalves ih d n _

theorem bfMem_below (f : Word × Word → Word × Word) {m : Memory} {size : Nat} (d a n : Nat) (h : m.below size = true)
    (hd : d + 8 * n ≤ size) : (bfMem f m d a n).below size = true := by
  induction n with
  | zero => exact h
  | succ n ih => rw [bfMem_succ]; exact Memory.below_writeHalves (ih (by omega)) (by omega) _

/-! AES: 43 R216 and R217. -/

/-- The memory and the working IV after the first n blocks of AES.ENC. -/
theorem aesEnc_fold_succ (c : AesContext) (chain : Option Block) (m : Memory) (d a n : Nat) :
    Nat.fold (n + 1) (fun k _ mv => aesEncStep c d a k mv) (m, chain) =
      aesEncStep c d a n (Nat.fold n (fun k _ mv => aesEncStep c d a k mv) (m, chain)) := rfl

theorem aesDec_fold_succ (c : AesContext) (chain : Option Block) (m : Memory) (d a n : Nat) :
    Nat.fold (n + 1) (fun k _ mv => aesDecStep c d a k mv) (m, chain) =
      aesDecStep c d a n (Nat.fold n (fun k _ mv => aesDecStep c d a k mv) (m, chain)) := rfl

theorem aesEncMem_read_outside (c : AesContext) (chain : Option Block) (m : Memory) (d a n : Nat) {x : Nat}
    (h : x < d ∨ d + 16 * n ≤ x) : (aesEncMem c chain m d a n).read x = m.read x := by
  unfold aesEncMem
  induction n with
  | zero => rfl
  | succ n ih =>
    rw [aesEnc_fold_succ, aesEncStep]
    simp only
    rw [Memory.read_writeBlock_other _ _ (by omega), ih (by omega)]

theorem aesDecMem_read_outside (c : AesContext) (chain : Option Block) (m : Memory) (d a n : Nat) {x : Nat}
    (h : x < d ∨ d + 16 * n ≤ x) : (aesDecMem c chain m d a n).read x = m.read x := by
  unfold aesDecMem
  induction n with
  | zero => rfl
  | succ n ih =>
    rw [aesDec_fold_succ, aesDecStep]
    simp only
    rw [Memory.read_writeBlock_other _ _ (by omega), ih (by omega)]

/-- The working IV after n blocks of AES.ENC: the start value, then the last block written. -/
theorem aesEnc_chain (c : AesContext) (chain : Option Block) (m : Memory) (d a n : Nat) :
    (Nat.fold n (fun k _ mv => aesEncStep c d a k mv) (m, chain)).2 =
      chain.map fun iv => if n = 0 then iv else (aesEncMem c chain m d a n).readBlock d (n - 1) := by
  cases n with
  | zero => cases chain <;> rfl
  | succ n =>
    have hb : (aesEncMem c chain m d a (n + 1)).readBlock d n =
        encryptBlock c.ek (chainXor ((Nat.fold n (fun k _ mv => aesEncStep c d a k mv) (m, chain)).1.readBlock a n)
          (Nat.fold n (fun k _ mv => aesEncStep c d a k mv) (m, chain)).2) := by
      unfold aesEncMem
      rw [aesEnc_fold_succ, aesEncStep]
      exact Memory.readBlock_writeBlock_self _ _ _ _
    rw [aesEnc_fold_succ, aesEncStep]
    simp only [Nat.add_sub_cancel, Nat.add_one_ne_zero, if_false, hb, chainNext]
    have hs : ∀ j, (Nat.fold j (fun k _ mv => aesEncStep c d a k mv) (m, chain)).2.isSome = chain.isSome := by
      intro j
      induction j with
      | zero => rfl
      | succ j ih => rw [aesEnc_fold_succ, aesEncStep, chainNext, Option.isSome_map, ih]
    have hn := hs n
    generalize (Nat.fold n (fun k _ mv => aesEncStep c d a k mv) (m, chain)).2 = w at *
    cases w <;> cases chain <;> simp_all

/-- The working IV after n blocks of AES.DEC: the start value, then the last source block as it stood before the loop. -/
theorem aesDec_chain (c : AesContext) (chain : Option Block) (m : Memory) (d a n : Nat)
    (h : d = a ∨ d + 16 * n ≤ a ∨ a + 16 * n ≤ d) :
    (Nat.fold n (fun k _ mv => aesDecStep c d a k mv) (m, chain)).2 =
      chain.map fun iv => if n = 0 then iv else m.readBlock a (n - 1) := by
  induction n with
  | zero => cases chain <;> rfl
  | succ n ih =>
    have hb : (aesDecMem c chain m d a n).readBlock a n = m.readBlock a n :=
      Memory.readBlock_congr fun x h1 h2 => aesDecMem_read_outside c chain m d a n (by omega)
    unfold aesDecMem at hb
    rw [aesDec_fold_succ, aesDecStep]
    simp only [Nat.add_sub_cancel, Nat.add_one_ne_zero, if_false, hb, chainNext, ih (by omega), Option.map_map]
    rfl

/-- Every block AES.ENC writes, from the source block as it stood before the loop and the block written before it
(43 R216, R218, R219). -/
theorem aesEncMem_block (c : AesContext) (chain : Option Block) (m : Memory) (d a : Nat) {k n : Nat} (hk : k < n)
    (h : d = a ∨ d + 16 * n ≤ a ∨ a + 16 * n ≤ d) :
    (aesEncMem c chain m d a n).readBlock d k = encryptBlock c.ek (chainXor (m.readBlock a k)
      (chain.map fun iv => if k = 0 then iv else (aesEncMem c chain m d a n).readBlock d (k - 1))) := by
  induction n with
  | zero => omega
  | succ n ih =>
    have hw : ∀ j, j < n → (aesEncMem c chain m d a (n + 1)).readBlock d j = (aesEncMem c chain m d a n).readBlock d j := by
      intro j hj
      refine Memory.readBlock_congr fun x h1 h2 => ?_
      unfold aesEncMem
      rw [aesEnc_fold_succ, aesEncStep]
      exact Memory.read_writeBlock_other _ _ (by omega)
    by_cases hkn : k = n
    · subst hkn
      have hb : (aesEncMem c chain m d a k).readBlock a k = m.readBlock a k :=
        Memory.readBlock_congr fun x h1 h2 => aesEncMem_read_outside c chain m d a k (by omega)
      have hc := aesEnc_chain c chain m d a k
      have e : (aesEncMem c chain m d a (k + 1)).readBlock d k =
          encryptBlock c.ek (chainXor ((aesEncMem c chain m d a k).readBlock a k)
            (Nat.fold k (fun j _ mv => aesEncStep c d a j mv) (m, chain)).2) := by
        conv_lhs => unfold aesEncMem
        rw [aesEnc_fold_succ, aesEncStep]
        exact Memory.readBlock_writeBlock_self _ _ _ _
      rw [e, hb, hc]
      congr 2
      cases chain with
      | none => rfl
      | some iv =>
        by_cases h0 : k = 0
        · simp [h0]
        · simp only [Option.map_some, h0, if_false]
          rw [hw (k - 1) (by omega)]
    · rw [hw k (by omega), ih (by omega) (by omega)]
      congr 2
      cases chain with
      | none => rfl
      | some iv =>
        by_cases h0 : k = 0
        · simp [h0]
        · simp only [Option.map_some, h0, if_false]
          rw [hw (k - 1) (by omega)]

/-- Every block AES.DEC writes, from the source as it stood before the loop (43 R217, R218, R219). -/
theorem aesDecMem_block (c : AesContext) (chain : Option Block) (m : Memory) (d a : Nat) {k n : Nat} (hk : k < n)
    (h : d = a ∨ d + 16 * n ≤ a ∨ a + 16 * n ≤ d) :
    (aesDecMem c chain m d a n).readBlock d k = chainXor (decryptBlock c.dk (m.readBlock a k))
      (chain.map fun iv => if k = 0 then iv else m.readBlock a (k - 1)) := by
  induction n with
  | zero => omega
  | succ n ih =>
    by_cases hkn : k = n
    · subst hkn
      have hb : (aesDecMem c chain m d a k).readBlock a k = m.readBlock a k :=
        Memory.readBlock_congr fun x h1 h2 => aesDecMem_read_outside c chain m d a k (by omega)
      have hc := aesDec_chain c chain m d a k (by omega)
      have e : (aesDecMem c chain m d a (k + 1)).readBlock d k =
          chainXor (decryptBlock c.dk ((aesDecMem c chain m d a k).readBlock a k))
            (Nat.fold k (fun j _ mv => aesDecStep c d a j mv) (m, chain)).2 := by
        conv_lhs => unfold aesDecMem
        rw [aesDec_fold_succ, aesDecStep]
        exact Memory.readBlock_writeBlock_self _ _ _ _
      rw [e, hb, hc]
    · rw [← ih (by omega) (by omega)]
      refine Memory.readBlock_congr fun x h1 h2 => ?_
      unfold aesDecMem
      rw [aesDec_fold_succ, aesDecStep]
      exact Memory.read_writeBlock_other _ _ (by omega)

theorem aesEncMem_wf (c : AesContext) (chain : Option Block) {m : Memory} (d a n : Nat) (h : m.wf = true) :
    (aesEncMem c chain m d a n).wf = true := by
  unfold aesEncMem
  induction n with
  | zero => exact h
  | succ n ih => rw [aesEnc_fold_succ, aesEncStep]; exact Memory.wf_writeBlock ih d n _

theorem aesDecMem_wf (c : AesContext) (chain : Option Block) {m : Memory} (d a n : Nat) (h : m.wf = true) :
    (aesDecMem c chain m d a n).wf = true := by
  unfold aesDecMem
  induction n with
  | zero => exact h
  | succ n ih => rw [aesDec_fold_succ, aesDecStep]; exact Memory.wf_writeBlock ih d n _

theorem aesEncMem_below (c : AesContext) (chain : Option Block) {m : Memory} {size : Nat} (d a n : Nat)
    (h : m.below size = true) (hd : d + 16 * n ≤ size) : (aesEncMem c chain m d a n).below size = true := by
  unfold aesEncMem
  induction n with
  | zero => exact h
  | succ n ih => rw [aesEnc_fold_succ, aesEncStep]; exact Memory.below_writeBlock (ih (by omega)) (by omega) _

theorem aesDecMem_below (c : AesContext) (chain : Option Block) {m : Memory} {size : Nat} (d a n : Nat)
    (h : m.below size = true) (hd : d + 16 * n ≤ size) : (aesDecMem c chain m d a n).below size = true := by
  unfold aesDecMem
  induction n with
  | zero => exact h
  | succ n ih => rw [aesDec_fold_succ, aesDecStep]; exact Memory.below_writeBlock (ih (by omega)) (by omega) _

/-! RC4: 41 R173. -/

theorem rc4Crypt_succ (c : Rc4Context) (m : Memory) (d n : Nat) :
    rc4Crypt c m d (n + 1) = rc4CryptByte d n (rc4Crypt c m d n) := rfl

/-- The contexts the loop runs through, and the keystream: they depend on the context alone. -/
theorem rc4Crypt_context_succ (c : Rc4Context) (m : Memory) (d n : Nat) :
    (rc4Crypt c m d (n + 1)).1 = (prgaStep (rc4Crypt c m d n).1).1 := rfl

theorem rc4Crypt_context (c : Rc4Context) (m m' : Memory) (d d' n : Nat) :
    (rc4Crypt c m d n).1 = (rc4Crypt c m' d' n).1 := by
  induction n with
  | zero => rfl
  | succ n ih => rw [rc4Crypt_context_succ, rc4Crypt_context_succ, ih]

theorem rc4Crypt_read_outside (c : Rc4Context) (m : Memory) (d n : Nat) {x : Nat} (h : x < d ∨ d + n ≤ x) :
    (rc4Crypt c m d n).2.read x = m.read x := by
  induction n with
  | zero => rfl
  | succ n ih =>
    rw [rc4Crypt_succ, rc4CryptByte]
    simp only
    rw [Memory.read_write_other _ _ (by omega), ih (by omega)]

/-- Every byte of the buffer is xored with the keystream byte of its step. -/
theorem rc4Crypt_byte (c : Rc4Context) (m : Memory) (d : Nat) {k n : Nat} (hk : k < n) :
    (rc4Crypt c m d n).2.read (d + k) = m.read (d + k) ^^^ (prgaStep (rc4Crypt c m d k).1).2 := by
  induction n with
  | zero => omega
  | succ n ih =>
    rw [rc4Crypt_succ, rc4CryptByte]
    simp only
    by_cases hkn : k = n
    · subst hkn
      rw [Memory.read_write_self, rc4Crypt_read_outside c m d k (by omega)]
    · rw [Memory.read_write_other _ _ (by omega), ih (by omega)]

theorem rc4Crypt_wf (c : Rc4Context) {m : Memory} (d n : Nat) (h : m.wf = true) : (rc4Crypt c m d n).2.wf = true := by
  induction n with
  | zero => exact h
  | succ n ih => rw [rc4Crypt_succ, rc4CryptByte]; exact Memory.wf_write ih _ _

theorem rc4Crypt_below (c : Rc4Context) {m : Memory} {size : Nat} (d n : Nat) (h : m.below size = true)
    (hd : d + n ≤ size) : (rc4Crypt c m d n).2.below size = true := by
  induction n with
  | zero => exact h
  | succ n ih => rw [rc4Crypt_succ, rc4CryptByte]; exact Memory.below_write (ih (by omega)) (by omega) _

end Sys2Proof.Machine
end

