-- ==== Sys2Proof/Laws/Operands.lean ====
section
/-! SUPPORT. What the operand checks test, as propositions; when the checks of a block command pass and which of them fails
first; the bytes PKCS5.PAD writes; when an AES context can start. -/

namespace Sys2Proof.Machine

open Sys2Proof

@[simp] theorem isNull_eq_true (a : Word) : isNull a = true ↔ a = 0 := by simp [isNull]

@[simp] theorem isNull_eq_false (a : Word) : isNull a = false ↔ a ≠ 0 := by simp [isNull]

@[simp] theorem State.inRange_eq_true (s : State) (a : Word) (n : Nat) :
    s.inRange a n = true ↔ a.toNat + n ≤ s.params.memSize := by simp [State.inRange]

@[simp] theorem State.inRange_eq_false (s : State) (a : Word) (n : Nat) :
    s.inRange a n = false ↔ s.params.memSize < a.toNat + n := by simp [State.inRange]

@[simp] theorem overlaps_eq_true (d a : Word) (n : Nat) :
    overlaps d a n = true ↔ d ≠ a ∧ d.toNat < a.toNat + n ∧ a.toNat < d.toNat + n := by simp [overlaps, and_assoc]

@[simp] theorem badLength_eq_true (n : Word) (b : Nat) : badLength n b = true ↔ n = 0 ∨ n.toNat % b ≠ 0 := by
  simp [badLength]

@[simp] theorem blockSizeOk_eq_true (b : Word) : blockSizeOk b = true ↔ 1 ≤ b.toNat ∧ b.toNat ≤ 255 := by
  simp [blockSizeOk]

@[simp] theorem blockSizeOk_eq_false (b : Word) : blockSizeOk b = false ↔ ¬ (1 ≤ b.toNat ∧ b.toNat ≤ 255) := by
  rw [← blockSizeOk_eq_true, Bool.not_eq_true]

@[simp] theorem padOverflows_eq_true (p : Nat) : padOverflows p = true ↔ 0xffffffff < p := by simp [padOverflows]

/-- A non-null operand that is zero as a number does not exist. -/
theorem toNat_pos_of_ne_zero {w : Word} (h : w ≠ 0) : 0 < w.toNat := by
  rcases Nat.eq_zero_or_pos w.toNat with h0 | h0
  · exact absurd (BitVec.eq_of_toNat_eq (by simpa using h0)) h
  · exact h0

/-- The checks of a block command pass exactly for the good operands. -/
theorem State.blockFault_eq_none (n : Nat) (s : State) : s.blockFault n = none ↔ BlockOperandsGood n s := by
  unfold State.blockFault BlockOperandsGood
  have h := overlaps_eq_true s.a0 s.a1 s.a2.toNat
  have hb := badLength_eq_true s.a2 n
  have h1 := s.inRange_eq_true s.a0 s.a2.toNat
  have h2 := s.inRange_eq_true s.a1 s.a2.toNat
  have h3 := isNull_eq_true s.a0
  have h4 := isNull_eq_true s.a1
  repeat' split
  all_goals simp_all
  all_goals grind

theorem State.blockFault_null {n : Nat} {s : State} (h : s.a0 = 0 ∨ s.a1 = 0) : s.blockFault n = some .nullPtr := by
  unfold State.blockFault
  rw [if_pos (by simpa using h)]

theorem State.blockFault_length {n : Nat} {s : State} (h0 : s.a0 ≠ 0) (h1 : s.a1 ≠ 0) (h : s.a2 = 0 ∨ s.a2.toNat % n ≠ 0) :
    s.blockFault n = some .length := by
  unfold State.blockFault
  rw [if_neg (by simp_all), if_pos (by simpa using h)]

theorem State.blockFault_bounds {n : Nat} {s : State} (h0 : s.a0 ≠ 0) (h1 : s.a1 ≠ 0) (h2 : s.a2 ≠ 0)
    (h3 : s.a2.toNat % n = 0)
    (h : s.params.memSize < s.a0.toNat + s.a2.toNat ∨ s.params.memSize < s.a1.toNat + s.a2.toNat) :
    s.blockFault n = some .bounds := by
  unfold State.blockFault
  rw [if_neg (by simp_all), if_neg (by simp_all), if_pos (by simpa using h)]

theorem State.blockFault_overlap {n : Nat} {s : State} (h0 : s.a0 ≠ 0) (h1 : s.a1 ≠ 0) (h2 : s.a2 ≠ 0)
    (h3 : s.a2.toNat % n = 0) (h4 : s.a0.toNat + s.a2.toNat ≤ s.params.memSize)
    (h5 : s.a1.toNat + s.a2.toNat ≤ s.params.memSize) (h6 : s.a0 ≠ s.a1) (h7 : s.a0.toNat < s.a1.toNat + s.a2.toNat)
    (h8 : s.a1.toNat < s.a0.toNat + s.a2.toNat) : s.blockFault n = some .overlap := by
  unfold State.blockFault
  rw [if_neg (by simp_all), if_neg (by simp_all), if_neg (by simp; omega),
    if_pos ((overlaps_eq_true _ _ _).2 ⟨h6, h7, h8⟩)]

/-- What fails first is one of the four checks. -/
theorem State.blockFault_cases (n : Nat) (s : State) :
    s.blockFault n = some .nullPtr ∨ s.blockFault n = some .length ∨ s.blockFault n = some .bounds ∨
      s.blockFault n = some .overlap ∨ s.blockFault n = none := by
  unfold State.blockFault
  repeat' split
  all_goals simp

/-- The bytes PKCS5.PAD writes (40 R152). -/
theorem padBytes_read (m : Memory) (data length p c : Nat) :
    (padBytes m data length p).read c =
      if data + length ≤ c ∧ c < data + length + (p - length) then BitVec.ofNat 8 (p - length) else m.read c := by
  unfold padBytes
  rw [Memory.read_writeBytes]
  simp

/-- The padded length is above the length by 1 up to the block size (40 R151). -/
theorem padLen_bounds (length : Nat) {b : Nat} (hb : 1 ≤ b) : length < padLen length b ∧ padLen length b ≤ length + b := by
  unfold padLen
  have := Nat.mod_lt length hb
  omega

theorem AesContext.startChain_ecb {c : AesContext} (h : c.mode = .ecb) : c.startChain = some none := by
  unfold AesContext.startChain
  rw [h]

theorem AesContext.startChain_cbc {c : AesContext} {iv : Block} (h : c.mode = .cbc) (hi : c.iv = some iv) :
    c.startChain = some (some iv) := by
  unfold AesContext.startChain
  rw [h, hi]

theorem AesContext.startChain_noIv {c : AesContext} (h : c.mode = .cbc) (hi : c.iv = none) : c.startChain = none := by
  unfold AesContext.startChain
  rw [h, hi]

/-- The three key lengths and their round counts (42 R190). -/
theorem AesRounds.ofKeyLength_eq_some {n : Nat} {nr : AesRounds} (h : AesRounds.ofKeyLength n = some nr) : n = 4 * nr.nk := by
  unfold AesRounds.ofKeyLength at h
  repeat' split at h
  all_goals first | (cases h; done) | (cases h; assumption)

theorem AesRounds.ofKeyLength_eq_none (n : Nat) : AesRounds.ofKeyLength n = none ↔ n ≠ 16 ∧ n ≠ 24 ∧ n ≠ 32 := by
  unfold AesRounds.ofKeyLength
  repeat' split
  all_goals simp_all

theorem AesRounds.val_eq (nr : AesRounds) : nr.val = nr.nk + 6 := by cases nr <;> rfl

end Sys2Proof.Machine
end

