-- ==== Sys2Proof/Laws/PerInstr.lean ====
section
/-! SUPPORT. One statement per command, about its command word: the word passes the three tests of spec/30_encoding.md R121
and its fields are the OPC and MODE the table of R123 gives the command. -/

namespace Sys2Proof.Laws.CommandWord

open Sys2Proof

/-- The command's word is well-formed and its fields are the command's own. -/
def Statement (i : Instr) : Prop :=
  i.wellFormed = true ∧ wordWellFormed (encode i) = true ∧ zeroField (encode i) = 0 ∧ modeField (encode i) = modeOf i ∧
    opcField (encode i) = opcOf i

theorem pkcs5PadLen : Statement .pkcs5PadLen := by unfold Statement; decide
theorem pkcs5Pad : Statement .pkcs5Pad := by unfold Statement; decide
theorem pkcs5UnpadLen : Statement .pkcs5UnpadLen := by unfold Statement; decide
theorem pkcs5ChkLen : Statement .pkcs5ChkLen := by unfold Statement; decide
theorem rc4Init : Statement .rc4Init := by unfold Statement; decide
theorem rc4Enc : Statement .rc4Enc := by unfold Statement; decide
theorem rc4Dec : Statement .rc4Dec := by unfold Statement; decide
theorem aesInit (mode : ModeField) : Statement (.aesInit mode) := by unfold Statement; cases mode <;> decide
theorem aesEnc : Statement .aesEnc := by unfold Statement; decide
theorem aesDec : Statement .aesDec := by unfold Statement; decide
theorem aesIsInit : Statement .aesIsInit := by unfold Statement; decide
theorem bfInit : Statement .bfInit := by unfold Statement; decide
theorem bfEnc : Statement .bfEnc := by unfold Statement; decide
theorem bfDec : Statement .bfDec := by unfold Statement; decide

end Sys2Proof.Laws.CommandWord
end

