-- ==== Sys2Proof/Laws/Rc4.lean ====
section
/-! SUPPORT. What the RC4 steps do to the cells: a swap, one step of the key schedule, one step of the keystream; none of them
loses a value of the permutation. -/

namespace Sys2Proof.Machine

open Sys2Proof

theorem entry_identityCells (x : Byte) : entry identityCells x = x := by
  simp [entry, identityCells]

/-- After a swap the two cells have changed places and every other cell is as before. -/
theorem entry_swapCells (t : Vector Byte 256) (i j x : Byte) :
    entry (swapCells t i j) x = if x = i then entry t j else if x = j then entry t i else entry t x := by
  unfold entry swapCells
  rw [Vector.getElem_swap]
  have e : ∀ y : Byte, x.toNat = y.toNat ↔ x = y := fun y => ⟨BitVec.eq_of_toNat_eq, fun h => h ▸ rfl⟩
  simp only [e]

theorem swapCells_injective {t : Vector Byte 256} (h : Function.Injective (entry t)) (i j : Byte) :
    Function.Injective (entry (swapCells t i j)) := by
  intro x y hxy
  rw [entry_swapCells, entry_swapCells] at hxy
  have hi : ∀ a b, entry t a = entry t b → a = b := fun a b hab => h hab
  grind

theorem identityCells_injective : Function.Injective (entry identityCells) := by
  intro x y h
  rwa [entry_identityCells, entry_identityCells] at h

/-- One step of the key schedule: the new j, and the swap. -/
theorem ksaStep_eq (key : Nat → Byte) (length i : Nat) (t : Vector Byte 256) (j : Byte) :
    ksaStep key length i (t, j) =
      (swapCells t (BitVec.ofNat 8 i) (j + entry t (BitVec.ofNat 8 i) + key (i % length)),
        j + entry t (BitVec.ofNat 8 i) + key (i % length)) := rfl

/-- The state after the first n steps of the key schedule. -/
theorem ksa_fold_succ (key : Nat → Byte) (length n : Nat) (start : Vector Byte 256 × Byte) :
    Nat.fold (n + 1) (fun i _ sj => ksaStep key length i sj) start =
      ksaStep key length n (Nat.fold n (fun i _ sj => ksaStep key length i sj) start) := rfl

theorem prgaStep_i (c : Rc4Context) : (prgaStep c).1.i = c.i + 1 := rfl

theorem prgaStep_j (c : Rc4Context) : (prgaStep c).1.j = c.j + entry c.s (c.i + 1) := rfl

theorem prgaStep_s (c : Rc4Context) : (prgaStep c).1.s = swapCells c.s (c.i + 1) (c.j + entry c.s (c.i + 1)) := rfl

/-- The keystream byte is read after the swap. -/
theorem prgaStep_z (c : Rc4Context) :
    (prgaStep c).2 = entry (prgaStep c).1.s (entry (prgaStep c).1.s (prgaStep c).1.i
      + entry (prgaStep c).1.s (prgaStep c).1.j) := rfl

end Sys2Proof.Machine
end

