-- ==== Sys2Proof/Laws/State.lean ====
section
/-! SUPPORT. What each named update of State does to each field: one lemma per field per update, true by rfl, so that no
later proof unfolds a record update. -/

namespace Sys2Proof.Machine

open Sys2Proof

@[simp] theorem State.setRes_a0 (s : State) (v : Word) : (s.setRes v).a0 = s.a0 := rfl
@[simp] theorem State.setRes_a1 (s : State) (v : Word) : (s.setRes v).a1 = s.a1 := rfl
@[simp] theorem State.setRes_a2 (s : State) (v : Word) : (s.setRes v).a2 = s.a2 := rfl
@[simp] theorem State.setRes_res (s : State) (v : Word) : (s.setRes v).res = v := rfl
@[simp] theorem State.setRes_fault (s : State) (v : Word) : (s.setRes v).fault = s.fault := rfl
@[simp] theorem State.setRes_err (s : State) (v : Word) : (s.setRes v).err = s.err := rfl
@[simp] theorem State.setRes_fopc (s : State) (v : Word) : (s.setRes v).fopc = s.fopc := rfl
@[simp] theorem State.setRes_rc4 (s : State) (v : Word) : (s.setRes v).rc4 = s.rc4 := rfl
@[simp] theorem State.setRes_aes (s : State) (v : Word) : (s.setRes v).aes = s.aes := rfl
@[simp] theorem State.setRes_bf (s : State) (v : Word) : (s.setRes v).bf = s.bf := rfl
@[simp] theorem State.setRes_mem (s : State) (v : Word) : (s.setRes v).mem = s.mem := rfl
@[simp] theorem State.setRes_params (s : State) (v : Word) : (s.setRes v).params = s.params := rfl
@[simp] theorem State.setRes_host (s : State) (v : Word) : (s.setRes v).host = s.host := rfl

@[simp] theorem State.setMem_a0 (s : State) (m : Memory) : (s.setMem m).a0 = s.a0 := rfl
@[simp] theorem State.setMem_a1 (s : State) (m : Memory) : (s.setMem m).a1 = s.a1 := rfl
@[simp] theorem State.setMem_a2 (s : State) (m : Memory) : (s.setMem m).a2 = s.a2 := rfl
@[simp] theorem State.setMem_res (s : State) (m : Memory) : (s.setMem m).res = s.res := rfl
@[simp] theorem State.setMem_fault (s : State) (m : Memory) : (s.setMem m).fault = s.fault := rfl
@[simp] theorem State.setMem_err (s : State) (m : Memory) : (s.setMem m).err = s.err := rfl
@[simp] theorem State.setMem_fopc (s : State) (m : Memory) : (s.setMem m).fopc = s.fopc := rfl
@[simp] theorem State.setMem_rc4 (s : State) (m : Memory) : (s.setMem m).rc4 = s.rc4 := rfl
@[simp] theorem State.setMem_aes (s : State) (m : Memory) : (s.setMem m).aes = s.aes := rfl
@[simp] theorem State.setMem_bf (s : State) (m : Memory) : (s.setMem m).bf = s.bf := rfl
@[simp] theorem State.setMem_mem (s : State) (m : Memory) : (s.setMem m).mem = m := rfl
@[simp] theorem State.setMem_params (s : State) (m : Memory) : (s.setMem m).params = s.params := rfl
@[simp] theorem State.setMem_host (s : State) (m : Memory) : (s.setMem m).host = s.host := rfl

@[simp] theorem State.setRc4_a0 (s : State) (c : Rc4Context) : (s.setRc4 c).a0 = s.a0 := rfl
@[simp] theorem State.setRc4_a1 (s : State) (c : Rc4Context) : (s.setRc4 c).a1 = s.a1 := rfl
@[simp] theorem State.setRc4_a2 (s : State) (c : Rc4Context) : (s.setRc4 c).a2 = s.a2 := rfl
@[simp] theorem State.setRc4_res (s : State) (c : Rc4Context) : (s.setRc4 c).res = s.res := rfl
@[simp] theorem State.setRc4_fault (s : State) (c : Rc4Context) : (s.setRc4 c).fault = s.fault := rfl
@[simp] theorem State.setRc4_err (s : State) (c : Rc4Context) : (s.setRc4 c).err = s.err := rfl
@[simp] theorem State.setRc4_fopc (s : State) (c : Rc4Context) : (s.setRc4 c).fopc = s.fopc := rfl
@[simp] theorem State.setRc4_rc4 (s : State) (c : Rc4Context) : (s.setRc4 c).rc4 = some c := rfl
@[simp] theorem State.setRc4_aes (s : State) (c : Rc4Context) : (s.setRc4 c).aes = s.aes := rfl
@[simp] theorem State.setRc4_bf (s : State) (c : Rc4Context) : (s.setRc4 c).bf = s.bf := rfl
@[simp] theorem State.setRc4_mem (s : State) (c : Rc4Context) : (s.setRc4 c).mem = s.mem := rfl
@[simp] theorem State.setRc4_params (s : State) (c : Rc4Context) : (s.setRc4 c).params = s.params := rfl
@[simp] theorem State.setRc4_host (s : State) (c : Rc4Context) : (s.setRc4 c).host = s.host := rfl

@[simp] theorem State.setAes_a0 (s : State) (c : Option AesContext) : (s.setAes c).a0 = s.a0 := rfl
@[simp] theorem State.setAes_a1 (s : State) (c : Option AesContext) : (s.setAes c).a1 = s.a1 := rfl
@[simp] theorem State.setAes_a2 (s : State) (c : Option AesContext) : (s.setAes c).a2 = s.a2 := rfl
@[simp] theorem State.setAes_res (s : State) (c : Option AesContext) : (s.setAes c).res = s.res := rfl
@[simp] theorem State.setAes_fault (s : State) (c : Option AesContext) : (s.setAes c).fault = s.fault := rfl
@[simp] theorem State.setAes_err (s : State) (c : Option AesContext) : (s.setAes c).err = s.err := rfl
@[simp] theorem State.setAes_fopc (s : State) (c : Option AesContext) : (s.setAes c).fopc = s.fopc := rfl
@[simp] theorem State.setAes_rc4 (s : State) (c : Option AesContext) : (s.setAes c).rc4 = s.rc4 := rfl
@[simp] theorem State.setAes_aes (s : State) (c : Option AesContext) : (s.setAes c).aes = c := rfl
@[simp] theorem State.setAes_bf (s : State) (c : Option AesContext) : (s.setAes c).bf = s.bf := rfl
@[simp] theorem State.setAes_mem (s : State) (c : Option AesContext) : (s.setAes c).mem = s.mem := rfl
@[simp] theorem State.setAes_params (s : State) (c : Option AesContext) : (s.setAes c).params = s.params := rfl
@[simp] theorem State.setAes_host (s : State) (c : Option AesContext) : (s.setAes c).host = s.host := rfl

@[simp] theorem State.setBf_a0 (s : State) (c : Option BfContext) : (s.setBf c).a0 = s.a0 := rfl
@[simp] theorem State.setBf_a1 (s : State) (c : Option BfContext) : (s.setBf c).a1 = s.a1 := rfl
@[simp] theorem State.setBf_a2 (s : State) (c : Option BfContext) : (s.setBf c).a2 = s.a2 := rfl
@[simp] theorem State.setBf_res (s : State) (c : Option BfContext) : (s.setBf c).res = s.res := rfl
@[simp] theorem State.setBf_fault (s : State) (c : Option BfContext) : (s.setBf c).fault = s.fault := rfl
@[simp] theorem State.setBf_err (s : State) (c : Option BfContext) : (s.setBf c).err = s.err := rfl
@[simp] theorem State.setBf_fopc (s : State) (c : Option BfContext) : (s.setBf c).fopc = s.fopc := rfl
@[simp] theorem State.setBf_rc4 (s : State) (c : Option BfContext) : (s.setBf c).rc4 = s.rc4 := rfl
@[simp] theorem State.setBf_aes (s : State) (c : Option BfContext) : (s.setBf c).aes = s.aes := rfl
@[simp] theorem State.setBf_bf (s : State) (c : Option BfContext) : (s.setBf c).bf = c := rfl
@[simp] theorem State.setBf_mem (s : State) (c : Option BfContext) : (s.setBf c).mem = s.mem := rfl
@[simp] theorem State.setBf_params (s : State) (c : Option BfContext) : (s.setBf c).params = s.params := rfl
@[simp] theorem State.setBf_host (s : State) (c : Option BfContext) : (s.setBf c).host = s.host := rfl

@[simp] theorem State.enterFault_a0 (s : State) (code : FaultCode) (opc : Byte) : (s.enterFault code opc).a0 = s.a0 := rfl
@[simp] theorem State.enterFault_a1 (s : State) (code : FaultCode) (opc : Byte) : (s.enterFault code opc).a1 = s.a1 := rfl
@[simp] theorem State.enterFault_a2 (s : State) (code : FaultCode) (opc : Byte) : (s.enterFault code opc).a2 = s.a2 := rfl
@[simp] theorem State.enterFault_res (s : State) (code : FaultCode) (opc : Byte) : (s.enterFault code opc).res = s.res := rfl
@[simp] theorem State.enterFault_fault (s : State) (code : FaultCode) (opc : Byte) : (s.enterFault code opc).fault = true := rfl
@[simp] theorem State.enterFault_err (s : State) (code : FaultCode) (opc : Byte) : (s.enterFault code opc).err = code.byte := rfl
@[simp] theorem State.enterFault_fopc (s : State) (code : FaultCode) (opc : Byte) : (s.enterFault code opc).fopc = opc := rfl
@[simp] theorem State.enterFault_rc4 (s : State) (code : FaultCode) (opc : Byte) : (s.enterFault code opc).rc4 = s.rc4 := rfl
@[simp] theorem State.enterFault_aes (s : State) (code : FaultCode) (opc : Byte) : (s.enterFault code opc).aes = s.aes := rfl
@[simp] theorem State.enterFault_bf (s : State) (code : FaultCode) (opc : Byte) : (s.enterFault code opc).bf = s.bf := rfl
@[simp] theorem State.enterFault_mem (s : State) (code : FaultCode) (opc : Byte) : (s.enterFault code opc).mem = s.mem := rfl
@[simp] theorem State.enterFault_params (s : State) (code : FaultCode) (opc : Byte) : (s.enterFault code opc).params = s.params := rfl
@[simp] theorem State.enterFault_host (s : State) (code : FaultCode) (opc : Byte) : (s.enterFault code opc).host = s.host := rfl

@[simp] theorem State.afterReset_a0 (p : Params) (m : Memory) (h : List HostAction) : (State.afterReset p m h).a0 = 0 := rfl
@[simp] theorem State.afterReset_a1 (p : Params) (m : Memory) (h : List HostAction) : (State.afterReset p m h).a1 = 0 := rfl
@[simp] theorem State.afterReset_a2 (p : Params) (m : Memory) (h : List HostAction) : (State.afterReset p m h).a2 = 0 := rfl
@[simp] theorem State.afterReset_res (p : Params) (m : Memory) (h : List HostAction) : (State.afterReset p m h).res = 0 := rfl
@[simp] theorem State.afterReset_fault (p : Params) (m : Memory) (h : List HostAction) : (State.afterReset p m h).fault = false := rfl
@[simp] theorem State.afterReset_err (p : Params) (m : Memory) (h : List HostAction) : (State.afterReset p m h).err = 0 := rfl
@[simp] theorem State.afterReset_fopc (p : Params) (m : Memory) (h : List HostAction) : (State.afterReset p m h).fopc = 0 := rfl
@[simp] theorem State.afterReset_rc4 (p : Params) (m : Memory) (h : List HostAction) : (State.afterReset p m h).rc4 = none := rfl
@[simp] theorem State.afterReset_aes (p : Params) (m : Memory) (h : List HostAction) : (State.afterReset p m h).aes = none := rfl
@[simp] theorem State.afterReset_bf (p : Params) (m : Memory) (h : List HostAction) : (State.afterReset p m h).bf = none := rfl
@[simp] theorem State.afterReset_mem (p : Params) (m : Memory) (h : List HostAction) : (State.afterReset p m h).mem = m := rfl
@[simp] theorem State.afterReset_params (p : Params) (m : Memory) (h : List HostAction) : (State.afterReset p m h).params = p := rfl
@[simp] theorem State.afterReset_host (p : Params) (m : Memory) (h : List HostAction) : (State.afterReset p m h).host = h := rfl

@[simp] theorem State.resetEvent_a0 (s : State) : s.resetEvent.a0 = 0 := rfl
@[simp] theorem State.resetEvent_a1 (s : State) : s.resetEvent.a1 = 0 := rfl
@[simp] theorem State.resetEvent_a2 (s : State) : s.resetEvent.a2 = 0 := rfl
@[simp] theorem State.resetEvent_res (s : State) : s.resetEvent.res = 0 := rfl
@[simp] theorem State.resetEvent_fault (s : State) : s.resetEvent.fault = false := rfl
@[simp] theorem State.resetEvent_err (s : State) : s.resetEvent.err = 0 := rfl
@[simp] theorem State.resetEvent_fopc (s : State) : s.resetEvent.fopc = 0 := rfl
@[simp] theorem State.resetEvent_rc4 (s : State) : s.resetEvent.rc4 = none := rfl
@[simp] theorem State.resetEvent_aes (s : State) : s.resetEvent.aes = none := rfl
@[simp] theorem State.resetEvent_bf (s : State) : s.resetEvent.bf = none := rfl
@[simp] theorem State.resetEvent_mem (s : State) : s.resetEvent.mem = s.mem := rfl
@[simp] theorem State.resetEvent_params (s : State) : s.resetEvent.params = s.params := rfl
@[simp] theorem State.resetEvent_host (s : State) : s.resetEvent.host = s.host := rfl

/-! The flags after the updates that can change them. -/

@[simp] theorem State.setRc4_rc4Init (s : State) (c : Rc4Context) : (s.setRc4 c).rc4Init = true := rfl
@[simp] theorem State.setAes_none_aesInit (s : State) : (s.setAes none).aesInit = false := rfl
@[simp] theorem State.setAes_none_aesMode (s : State) : (s.setAes none).aesMode = 0 := rfl
@[simp] theorem State.setAes_none_aesIvValid (s : State) : (s.setAes none).aesIvValid = false := rfl
@[simp] theorem State.setAes_some_aesMode (s : State) (c : AesContext) : (s.setAes (some c)).aesMode = c.mode.bits := rfl
@[simp] theorem State.setAes_some_aesIvValid (s : State) (c : AesContext) :
    (s.setAes (some c)).aesIvValid = c.iv.isSome := rfl
@[simp] theorem State.setBf_bfInit (s : State) (c : Option BfContext) : (s.setBf c).bfInit = c.isSome := rfl

/-- `AES.Mode != 0` exactly while the context is present. -/
theorem State.aesInit_eq_isSome (s : State) : s.aesInit = s.aes.isSome := by
  unfold State.aesInit State.aesMode
  cases h : s.aes with
  | none => rfl
  | some c => cases hm : c.mode <;> simp [hm, AesMode.bits]

/-- The range check looks at the parameters alone. -/
theorem State.inRange_congr {s t : State} (h : s.params = t.params) (a : Word) (n : Nat) : s.inRange a n = t.inRange a n := by
  unfold State.inRange
  rw [h]

theorem State.reset_mem : State.reset.mem = [] := rfl

/-- The memory after reset has its canonical form. -/
theorem State.reset_mem_wf : State.reset.mem.wf = true := rfl

end Sys2Proof.Machine
end

