-- ==== Sys2Proof/Laws/Steps.lean ====
section
/-! SUPPORT. What a step can do, said once: the host's next action, a submitted word, and the three frames the cipher
commands share. -/

namespace Sys2Proof.Machine

open Sys2Proof

/-- A step that gives a next state: nothing to do, reset, a byte of memory, an operand register or an ignored write, or a word
submitted to CMD. -/
theorem step_cases {s t : State} (h : step s = .next t) :
    (s.host = [] ∧ t = s) ∨
    (∃ rest, s.host = .reset :: rest ∧ t = State.afterReset s.params s.mem rest) ∨
    (∃ a v rest, s.host = .writeMem a v :: rest ∧ a < s.params.memSize ∧ t = { s with mem := s.mem.write a v, host := rest }) ∨
    (∃ n v rest, s.host = .writeReg n v :: rest ∧ n ≠ 0 ∧
      t = { s with a0 := if n = 1 then v else s.a0, a1 := if n = 2 then v else s.a1, a2 := if n = 3 then v else s.a2,
                   host := rest }) ∨
    ∃ w rest, s.host = .writeReg 0 w :: rest ∧ submit w { s with host := rest } = .next t := by
  unfold step hostNext at h
  rcases hh : s.host with _ | ⟨a, rest⟩
  · rw [hh] at h
    cases h
    exact .inl ⟨rfl, rfl⟩
  · rw [hh] at h
    rcases a with ⟨n, v⟩ | ⟨a, v⟩ | _
    · by_cases hn : n = 0
      · subst hn
        exact .inr (.inr (.inr (.inr ⟨v, rest, rfl, h⟩)))
      · refine .inr (.inr (.inr (.inl ⟨n, v, rest, rfl, hn, ?_⟩)))
        simp only [hostAct] at h
        unfold hostWriteReg at h
        split at h
        · exact absurd rfl hn
        all_goals (cases h; simp_all)
    · simp only [hostAct, hostWriteMem] at h
      split at h
      · next ha =>
        cases h
        exact .inr (.inr (.inl ⟨a, v, rest, rfl, ha, rfl⟩))
      · cases h
    · cases h
      exact .inr (.inl ⟨rest, rfl, rfl⟩)

/-- A submitted word: ignored while FAULT = 1, executed where it names a command, else ILLEGAL_CMD. -/
theorem submit_cases (w : Word) (s : State) :
    (s.fault = true ∧ submit w s = .next s) ∨
    (∃ i, s.fault = false ∧ decode w = .ok i ∧ submit w s = exec i s) ∨
    (∃ e, s.fault = false ∧ decode w = .error e ∧ submit w s = raise .illegalCmd (opcField w) s) := by
  unfold submit
  cases hf : s.fault with
  | true => exact .inl ⟨rfl, rfl⟩
  | false =>
    cases hd : decode w with
    | ok i => exact .inr (.inl ⟨i, rfl, rfl, rfl⟩)
    | error e => exact .inr (.inr ⟨e, rfl, rfl, rfl⟩)

/-- RC4.ENC and RC4.DEC: a fault, or the whole loop. -/
theorem rc4Command_cases (opc : Byte) (s : State) :
    (∃ code, rc4Command opc s = raise code opc s) ∨
    ∃ c, s.rc4 = some c ∧ s.a0 ≠ 0 ∧ s.a0.toNat + s.a1.toNat ≤ s.params.memSize ∧
      rc4Command opc s = .next { s with
        mem := (rc4Crypt (rc4Start s.params c) s.mem s.a0.toNat s.a1.toNat).2,
        rc4 := some (rc4Crypt (rc4Start s.params c) s.mem s.a0.toNat s.a1.toNat).1, res := s.a1 } := by
  unfold rc4Command
  split
  · exact .inl ⟨_, rfl⟩
  · next c hc =>
    split
    · exact .inl ⟨_, rfl⟩
    · next h0 =>
      split
      · exact .inl ⟨_, rfl⟩
      · next h1 => exact .inr ⟨c, hc, by simpa [isNull] using h0, by simpa [State.inRange] using h1, rfl⟩

/-- AES.ENC and AES.DEC: a fault, or the whole loop. -/
theorem aesCommand_cases (opc : Byte) (blocks : AesContext → Option Block → Memory → Nat → Nat → Nat → Memory) (s : State) :
    (∃ code, aesCommand opc blocks s = raise code opc s) ∨
    ∃ c chain, s.aes = some c ∧ s.blockFault 16 = none ∧ c.startChain = some chain ∧
      aesCommand opc blocks s = .next { s with
        mem := blocks c chain s.mem s.a0.toNat s.a1.toNat (s.a2.toNat / 16), res := s.a2 } := by
  unfold aesCommand
  split
  · exact .inl ⟨_, rfl⟩
  · next c hc =>
    split
    · exact .inl ⟨_, rfl⟩
    · next hb =>
      split
      · exact .inl ⟨_, rfl⟩
      · next chain hch => exact .inr ⟨c, chain, hc, hb, hch, rfl⟩

/-- BF.ENC and BF.DEC: a fault, or the whole loop. -/
theorem bfCommand_cases (opc : Byte) (f : BfContext → Word × Word → Word × Word) (s : State) :
    (∃ code, bfCommand opc f s = raise code opc s) ∨
    ∃ c, s.bf = some c ∧ s.blockFault 8 = none ∧
      bfCommand opc f s = .next { s with mem := bfMem (f c) s.mem s.a0.toNat s.a1.toNat (s.a2.toNat / 8) } := by
  unfold bfCommand
  split
  · exact .inl ⟨_, rfl⟩
  · next c hc =>
    split
    · exact .inl ⟨_, rfl⟩
    · next hb => exact .inr ⟨c, hc, hb, rfl⟩

/-- Fault entry (60 R272): which fields it writes. -/
theorem raise_eq (code : FaultCode) (opc : Byte) (s : State) :
    raise code opc s = .next { s with fault := true, err := code.byte, fopc := opc } := rfl

end Sys2Proof.Machine
end

