-- ==== Sys2Proof/Tests/Slice0.lean ====
section
/-! SUPPORT. The model's own tests. Expected values are the spec's (95_test_vectors.md, cited as V<n>, and the examples of the
rules); none is the model's own answer. Then, for every statement with hypotheses, concrete states that meet them. -/

namespace Sys2Proof.Tests

open Sys2Proof Sys2Proof.Machine

/-! ## Helpers -/

/-- A state after reset with `MEM_SIZE = 0x1000` (the size the vectors use), these operands and this memory. -/
def st (a0 a1 a2 : Word) (m : Memory) : State :=
  { State.afterReset ⟨0x1000, true⟩ m [] with a0 := a0, a1 := a1, a2 := a2 }

/-- The same with one action of the host to come. -/
def act (s : State) (a : HostAction) : State := { s with host := [a] }

/-- STATUS after a command. -/
def statusAfter (i : Instr) (s : State) : Option Word := (nextOf (exec i s)).map State.status

/-- RES and STATUS after a command. -/
def resAfter (i : Instr) (s : State) : Option (Word × Word) := (nextOf (exec i s)).map fun t => (t.res, t.status)

/-- The `n` bytes at `a` after a command. -/
def bytesAfter (i : Instr) (s : State) (a n : Nat) : Option (List Byte) :=
  (nextOf (exec i s)).map fun t => (List.range n).map fun k => t.mem.read (a + k)

/-- An RC4 context: the identity permutation. -/
def rc4Ctx : Rc4Context := { s := identityCells, i := 0, j := 0 }

/-- An AES-128 context of the all-zero key. -/
def aesCtx (mode : AesMode) (iv : Option Block) : AesContext where
  nr := .r10
  ek := keyExpand .r10 (Vector.replicate 4 0)
  dk := invKeySchedule (keyExpand .r10 (Vector.replicate 4 0))
  iv := iv
  mode := mode

/-- The Blowfish context of the one-byte key 00. -/
def bfCtx : BfContext := bfSchedule (fun _ => 0) 1

/-- A state with the AES unit in this mode. -/
def aesSt (a0 a1 a2 : Word) (m : Memory) (mode : AesMode) (iv : Option Block) : State :=
  { st a0 a1 a2 m with aes := some (aesCtx mode iv) }

def rc4St (a0 a1 : Word) (m : Memory) : State := { st a0 a1 0 m with rc4 := some rc4Ctx }

def bfSt (a0 a1 a2 : Word) (m : Memory) : State := { st a0 a1 a2 m with bf := some bfCtx }

def zeroIv : Block := ⟨0, 0, 0, 0⟩

/-! ## Well-formed words: one ill-formed word for each check (30 R121, R125) -/

/-- V40: bit 10 set. -/
theorem test_wellFormed_zero_field : zeroFieldOk 0x00000430 = false ∧ wordWellFormed 0x00000430 = false := by decide

/-- V40: 0x14 is no OPC. -/
theorem test_wellFormed_opc : opcFieldOk 0x00000014 = false ∧ wordWellFormed 0x00000014 = false := by decide

/-- V40: MODE = 1 in AES.ENC. -/
theorem test_wellFormed_mode : modeFieldOk 0x00000131 = false ∧ wordWellFormed 0x00000131 = false := by decide

/-- 30 R123: legal words. -/
theorem test_wellFormed_legal : wordWellFormed 0x00000330 = true ∧ wordWellFormed 0x00000042 = true := by decide

/-! ## Decoding: every command's word, written out bit by bit from 30 R120 and R123: ZERO, MODE, OPC -/

theorem test_decode_pkcs5 :
    decode 0b0000000000000000000000_00_00010000 = .ok .pkcs5PadLen ∧
    decode 0b0000000000000000000000_00_00010001 = .ok .pkcs5Pad ∧
    decode 0b0000000000000000000000_00_00010010 = .ok .pkcs5UnpadLen ∧
    decode 0b0000000000000000000000_00_00010011 = .ok .pkcs5ChkLen := by decide

theorem test_decode_rc4 :
    decode 0b0000000000000000000000_00_00100000 = .ok .rc4Init ∧
    decode 0b0000000000000000000000_00_00100001 = .ok .rc4Enc ∧
    decode 0b0000000000000000000000_00_00100010 = .ok .rc4Dec := by decide

theorem test_decode_aes_init :
    decode 0b0000000000000000000000_00_00110000 = .ok (.aesInit .modeNone) ∧
    decode 0b0000000000000000000000_01_00110000 = .ok (.aesInit .ecb) ∧
    decode 0b0000000000000000000000_10_00110000 = .ok (.aesInit .cbc) ∧
    decode 0b0000000000000000000000_11_00110000 = .ok (.aesInit .reserved) := by decide

theorem test_decode_aes :
    decode 0b0000000000000000000000_00_00110001 = .ok .aesEnc ∧
    decode 0b0000000000000000000000_00_00110010 = .ok .aesDec ∧
    decode 0b0000000000000000000000_00_00110011 = .ok .aesIsInit := by decide

theorem test_decode_bf :
    decode 0b0000000000000000000000_00_01000000 = .ok .bfInit ∧
    decode 0b0000000000000000000000_00_01000001 = .ok .bfEnc ∧
    decode 0b0000000000000000000000_00_01000010 = .ok .bfDec := by decide

/-- V40: refused words, by name. -/
theorem test_decode_refused :
    decode 0x00000000 = .error .unlistedOpc ∧ decode 0x00000210 = .error .modeField ∧
    decode 0x80000020 = .error .zeroField ∧ decode 0xffffffff = .error .zeroField := by decide

/-- The table's numbering of bits: the low bits of the word. -/
theorem test_decodeTableWord : decodeTableWord 32 0x230 = some (.aesInit .cbc) ∧ decodeTableWord 32 0x14 = none := by decide

/-! ## One step of each command, on the spec's vectors -/

/-- V4. -/
theorem test_padLen :
    resAfter .pkcs5PadLen (st 8 8 0 []) = some (16, 0) ∧ resAfter .pkcs5PadLen (st 0xffffff00 255 0 []) = some (0xffffffff, 0) ∧
    statusAfter .pkcs5PadLen (st 5 256 0 []) = some 0x00100601 ∧
    statusAfter .pkcs5PadLen (st 0xfffffff8 8 0 []) = some 0x00100701 ∧
    statusAfter .pkcs5PadLen (st 0xffffffff 0 0 []) = some 0x00100601 := by decide

/-- V5. -/
theorem test_pad : bytesAfter .pkcs5Pad (st 0x100 5 8 [(0x104, 0xee), (0x105, 0xee), (0x108, 0xee)]) 0x104 5 =
    some [0xee, 0x03, 0x03, 0x03, 0xee] := by decide

/-- V5. -/
theorem test_pad_faults :
    statusAfter .pkcs5Pad (st 0 5 0 []) = some 0x00110301 ∧ statusAfter .pkcs5Pad (st 0x100 5 0 []) = some 0x00110601 ∧
    statusAfter .pkcs5Pad (st 0x100 0xfffffff8 8 []) = some 0x00110701 ∧
    statusAfter .pkcs5Pad (st 0xffc 1 8 []) = some 0x00110801 ∧ statusAfter .pkcs5Pad (st 0xff8 1 8 []) = some 0 := by decide

/-- V6b. -/
theorem test_unpadLen :
    resAfter .pkcs5UnpadLen (st 0x100 8 0 []) = some (8, 0) ∧
    resAfter .pkcs5UnpadLen (st 0x100 8 0 [(0x105, 0x05), (0x106, 0x01), (0x107, 0x03)]) = some (5, 0) ∧
    resAfter .pkcs5UnpadLen (st 0x100 1 0 [(0x100, 0x01)]) = some (0, 0) := by decide

/-- V6b. -/
theorem test_unpadLen_faults :
    statusAfter .pkcs5UnpadLen (st 0 0 0 []) = some 0x00120301 ∧ statusAfter .pkcs5UnpadLen (st 0x100 0 0 []) = some 0x00120401 ∧
    statusAfter .pkcs5UnpadLen (st 0xffc 8 0 []) = some 0x00120801 ∧
    statusAfter .pkcs5UnpadLen (st 0x100 8 0 [(0x107, 0x09)]) = some 0x00120b01 := by decide

/-- V7. -/
theorem test_chkLen :
    resAfter .pkcs5ChkLen (st 510 255 0 []) = some (1, 0) ∧ resAfter .pkcs5ChkLen (st 511 255 0 []) = some (0, 0) ∧
    resAfter .pkcs5ChkLen (st 0 16 0 []) = some (1, 0) ∧ statusAfter .pkcs5ChkLen (st 16 0 0 []) = some 0x00130601 := by decide

/-- V10, the first two key-scheduling steps of the key "Key": j is 75, then 177; S[1] is b1 and S[177] is 01 after. -/
theorem test_rc4_key_schedule_steps :
    let key : Nat → Byte := fun k => [0x4b, 0x65, 0x79].getD k 0
    let one := ksaStep key 3 0 (identityCells, 0)
    let two := ksaStep key 3 1 one
    one.2 = 75 ∧ entry one.1 0 = 0x4b ∧ entry one.1 75 = 0x00 ∧ two.2 = 177 ∧ entry two.1 1 = 0xb1 ∧
      entry two.1 177 = 0x01 := by decide +kernel

/-- V15. -/
theorem test_rc4_faults :
    statusAfter .rc4Init (st 0 0 0 []) = some 0x00200301 ∧ statusAfter .rc4Init (st 0x100 0 0 []) = some 0x00200501 ∧
    statusAfter .rc4Init (st 0xffe 3 0 []) = some 0x00200801 ∧ statusAfter .rc4Enc (st 0x200 9 0 []) = some 0x00210201 ∧
    statusAfter .rc4Dec (st 0x200 9 0 []) = some 0x00220201 ∧ statusAfter .rc4Enc (rc4St 0 0 []) = some 0x00210303 ∧
    statusAfter .rc4Enc (rc4St 0xffc 9 []) = some 0x00210803 := by decide

/-- V14: length 0 changes nothing and gives RES = 0; the unit stays initialized. -/
theorem test_rc4_enc_length_zero : resAfter .rc4Enc (rc4St 0x1000 0 []) = some (0, 2) := by decide

/-- By hand from 41 R174, on the identity permutation: i = 1, j = 1, S[1] + S[1] = 2, z = S[2] = 2; then i = 2, j = 3, the swap
of 2 and 3, z = S[3 + 2] = 5. -/
theorem test_rc4_dec_two_bytes :
    bytesAfter .rc4Dec (rc4St 0x200 2 [(0x200, 0xff), (0x202, 0x77)]) 0x200 3 = some [0xfd, 0x05, 0x77] := by
  decide +kernel

/-- 11 R61: its examples. -/
theorem test_aes_field : xtime 0x57 = 0xae ∧ xtime 0xae = 0x47 ∧ gmul 0x57 0x13 = 0xfe ∧ ginv 0x53 = 0xca ∧ ginv 0 = 0 := by
  decide +kernel

/-- V22c: the recoverable failures and the faults. -/
theorem test_aes_init_fails :
    resAfter (.aesInit .modeNone) (aesSt 0x180 0x100 16 [] .ecb none) = some (0, 0) ∧
    resAfter (.aesInit .reserved) (st 0x180 0x100 16 []) = some (0, 0) ∧
    resAfter (.aesInit .ecb) (st 0 0 16 []) = some (0, 0) ∧ resAfter (.aesInit .ecb) (st 0xff8 0x100 20 []) = some (0, 0) ∧
    statusAfter (.aesInit .ecb) (st 0 0xff8 16 []) = some 0x00300801 ∧
    statusAfter (.aesInit .cbc) (st 0xff8 0x100 16 []) = some 0x00300801 := by decide

/-- V22c: the four successful lines of the table. -/
theorem test_aes_init_succeeds :
    resAfter (.aesInit .ecb) (st 0 0x100 16 []) = some (1, 0x14) ∧
    resAfter (.aesInit .ecb) (st 0x180 0x100 16 []) = some (1, 0x54) ∧
    resAfter (.aesInit .cbc) (st 0x180 0x100 24 []) = some (1, 0x64) ∧
    resAfter (.aesInit .cbc) (st 0 0x100 32 []) = some (1, 0x24) := by decide +kernel

/-- V20: the last round key of AES-128. -/
theorem test_aes_key_schedule :
    let w := keyExpand .r10 #v[0x00010203, 0x04050607, 0x08090a0b, 0x0c0d0e0f]
    w[4] = 0xd6aa74fd ∧ w[43] = 0x4d2b30c5 := by decide +kernel

/-- V20: `Dk[4] = InvMixWord(Ek[36])`. -/
theorem test_aes_inv_mix_word : invMixWord 0x549932d1 = 0x13aa29be := by decide +kernel

/-- V28b: the all-zero key and block, ECB. -/
theorem test_aes_enc : bytesAfter .aesEnc (aesSt 0x300 0x200 16 [] .ecb none) 0x300 16 =
    some [0x66, 0xe9, 0x4b, 0xd4, 0xef, 0x8a, 0x2c, 0x3b, 0x88, 0x4c, 0xfa, 0x59, 0xca, 0x34, 0x2b, 0x2e] := by
  decide +kernel

/-- V29. -/
theorem test_aes_enc_faults :
    statusAfter .aesEnc (st 0x300 0x200 16 []) = some 0x00310201 ∧
    statusAfter .aesEnc (aesSt 0 0x200 15 [] .ecb none) = some 0x00310315 ∧
    statusAfter .aesEnc (aesSt 0x300 0x200 24 [] .ecb none) = some 0x00310415 ∧
    statusAfter .aesEnc (aesSt 0x300 0xff8 16 [] .ecb none) = some 0x00310815 ∧
    statusAfter .aesEnc (aesSt 0x208 0x200 16 [] .cbc none) = some 0x00310925 ∧
    statusAfter .aesEnc (aesSt 0x300 0x200 16 [] .cbc none) = some 0x00310a25 := by decide

/-- V24: the first inverse round of the trace, from the state after round key 0, with Dk[4..7] of V20. -/
theorem test_aes_dec_round :
    decRound ⟨0x7ad5fda7, 0x89ef4e27, 0x2bca100b, 0x3d9ff59f⟩ ⟨0x13aa29be, 0x9c8faff6, 0xf770f580, 0x00f7bf03⟩ =
      ⟨0x54d990a1, 0x6ba09ab5, 0x96bbf40e, 0xa111702f⟩ := by decide +kernel

/-- V29. -/
theorem test_aes_dec_faults :
    statusAfter .aesDec (st 0x300 0x200 16 []) = some 0x00320201 ∧
    statusAfter .aesDec (aesSt 0x300 0x200 16 [] .cbc none) = some 0x00320a25 := by decide

/-- V22c. -/
theorem test_aes_isInit :
    resAfter .aesIsInit (st 0 0 0 []) = some (0, 0) ∧ resAfter .aesIsInit (aesSt 0 0 0 [] .cbc none) = some (1, 0x24) := by
  decide

/-- V34. -/
theorem test_bf_init_outcomes :
    resAfter .bfInit (bfSt 0xffc 57 0 []) = some (0, 0) ∧ resAfter .bfInit (st 0x100 0 0 []) = some (0, 0) ∧
    statusAfter .bfInit (st 0 0 0 []) = some 0x00400301 ∧ statusAfter .bfInit (st 0xffc 8 0 []) = some 0x00400801 := by decide

/-- V33: the key "Key" after the key xor. -/
theorem test_bf_key_xor :
    let c := bfKeyXor (fun k => [0x4b, 0x65, 0x79].getD k 0) 3 bfConstants
    c.p[0] = 0x6f5a13c3 ∧ c.p[1] = 0xe0da43b6 ∧ c.p[2] = 0x6a52ef57 ∧ c.p[3] = 0x48150a0f := by decide +kernel

/-- V30: the initial tables as the context. -/
theorem test_bf_enc :
    bytesAfter .bfEnc { st 0x300 0x200 8 [] with bf := some bfConstants } 0x300 8 =
      some [0x70, 0x6d, 0x9f, 0xcc, 0x17, 0x92, 0xd2, 0x3a] := by decide +kernel

/-- V34. -/
theorem test_bf_enc_faults :
    statusAfter .bfEnc (st 0x300 0x200 8 []) = some 0x00410201 ∧ statusAfter .bfEnc (bfSt 0 0x200 8 []) = some 0x00410309 ∧
    statusAfter .bfEnc (bfSt 0x300 0x200 12 []) = some 0x00410409 ∧
    statusAfter .bfEnc (bfSt 0xffc 0x200 8 []) = some 0x00410809 ∧
    statusAfter .bfEnc (bfSt 0x204 0x200 8 []) = some 0x00410909 := by decide

/-- V30: the inverse, in place. -/
theorem test_bf_dec : bfDecryptBlock bfConstants (0x706d9fcc, 0x1792d23a) = (0, 0) := by decide +kernel

/-- V34. -/
theorem test_bf_dec_faults : statusAfter .bfDec (st 0x300 0x200 8 []) = some 0x00420201 := by decide

/-- V41, its first three lines: the sticky fault ignores a command and an illegal word, and reset clears it. -/
theorem test_sticky_fault :
    (nextOf (step (act (st 0x200 9 0 []) (.writeReg 0 0x21)))).map State.status = some 0x00210201 ∧
    (nextOf (step (act { st 5 8 0 [] with fault := true, err := 2, fopc := 0x21 } (.writeReg 0 0)))).map State.status =
      some 0x00210201 ∧
    (nextOf (step (act { st 5 8 0 [] with fault := true, err := 2, fopc := 0x21 } .reset))).map State.status = some 0 := by
  decide

/-- V40: an illegal word raises ILLEGAL_CMD with FOPC its low byte. -/
theorem test_illegal_word :
    (nextOf (step (act (st 0 0 0 []) (.writeReg 0 0xffffffff)))).map State.status = some 0x00ff0101 := by decide

/-- 30 R126: the two host writes of an operand and the write of the word. -/
theorem test_script_line :
    lineActions startSymbols (.cmd .pkcs5PadLen [.num 5, .sym "NULL"]) =
      some [.writeReg 1 5, .writeReg 2 0, .writeReg 0 0x10] := by decide

/-! ## Witnesses: for each statement with hypotheses, states that meet them, clause by clause, at the ends of the ranges.
A hypothesis `exec i s = .next t` is met with the state the meaning gives. -/

/-- A state with all three units in use and memory listed, whose host is about to write a word to CMD. -/
def fullSt (fault : Bool) (err : Byte) (w : Word) : State :=
  { act (st 0x300 0x200 16 [(0x100, 1), (0xfff, 2)]) (.writeReg 0 w) with
    fault := fault, err := err, fopc := 0, rc4 := some rc4Ctx, aes := some (aesCtx .cbc (some zeroIv)), bf := some bfCtx }

theorem rc4Ctx_permutation : rc4Ctx.Permutation := identityCells_injective

theorem aesCtx_scheduled (mode : AesMode) (iv : Option Block) : (aesCtx mode iv).Scheduled := ⟨⟨_, rfl⟩, rfl⟩

theorem bfCtx_scheduled : bfCtx.Scheduled := ⟨fun _ => 0, 1, by decide, by decide, rfl⟩

theorem fullSt_inv (w : Word) : (fullSt false 0 w).Inv where
  memCanonical := (by decide : Memory.wf [(0x100, 1), (0xfff, 2)] = true)
  memBelow := (by decide : Memory.below [(0x100, 1), (0xfff, 2)] 0x1000 = true)
  paramsWf := (by decide : (⟨0x1000, true⟩ : Params).Wf)
  noRecord := fun _ => ⟨rfl, rfl⟩
  record := fun h => by cases h
  rc4Permutation := fun _ h => Option.some.inj h ▸ rc4Ctx_permutation
  aesScheduled := fun _ h => Option.some.inj h ▸ aesCtx_scheduled .cbc (some zeroIv)
  bfScheduled := fun _ h => Option.some.inj h ▸ bfCtx_scheduled

theorem fullSt_inv_fault (w : Word) : (fullSt true 0x0b w).Inv where
  memCanonical := (by decide : Memory.wf [(0x100, 1), (0xfff, 2)] = true)
  memBelow := (by decide : Memory.below [(0x100, 1), (0xfff, 2)] 0x1000 = true)
  paramsWf := (by decide : (⟨0x1000, true⟩ : Params).Wf)
  noRecord := fun h => by cases h
  record := fun _ => ⟨.padValue, rfl⟩
  rc4Permutation := fun _ h => Option.some.inj h ▸ rc4Ctx_permutation
  aesScheduled := fun _ h => Option.some.inj h ▸ aesCtx_scheduled .cbc (some zeroIv)
  bfScheduled := fun _ h => Option.some.inj h ▸ bfCtx_scheduled

theorem witness_ResetEventKeepsMemory :
    (act (st 1 2 3 [(0x200, 0x55)]) .reset).host = .reset :: [] ∧
    (act (fullSt true 2 0) .reset).fault = true ∧ ∃ t, step (act (fullSt true 2 0) .reset) = .next t ∧ t.fault = false :=
  ⟨rfl, rfl, _, rfl, rfl⟩

theorem witness_FaultIsStickyUntilReset :
    (fullSt true 2 0x10).fault = true ∧ (fullSt true 2 0x10).host = .writeReg 0 0x10 :: [] ∧
    (act (fullSt true 2 0) (.writeReg 1 7)).host = .writeReg 1 7 :: [] ∧
    (act (fullSt true 2 0) (.writeReg 3 7)).host = .writeReg 3 7 :: [] ∧
    (act (fullSt true 2 0) (.writeMem 0xfff 7)).host = .writeMem 0xfff 7 :: [] ∧ 0xfff < (fullSt true 2 0).params.memSize ∧
    (∃ t, step (fullSt true 2 0x10) = .next t) ∧ ∃ t, step (act (fullSt true 2 0) .reset) = .next t :=
  ⟨rfl, rfl, rfl, rfl, rfl, by decide, ⟨_, rfl⟩, ⟨_, rfl⟩⟩

theorem witness_StatusRegisterFields :
    ((fullSt false 0 0).Inv ∧ (fullSt false 0 0).fault = false) ∧
    ((fullSt true 0x0b 0).Inv ∧ (fullSt true 0x0b 0).fault = true) ∧
    (act (st 0 0 0 []) (.writeReg 5 0xffffffff)).host = .writeReg 5 0xffffffff :: [] :=
  ⟨⟨fullSt_inv 0, rfl⟩, ⟨fullSt_inv_fault 0, rfl⟩, rfl⟩

theorem witness_HostRegisterSpace :
    (act (st 0 0 0 []) (.writeReg 0 0x10)).host = .writeReg 0 0x10 :: [] ∧
    (act (st 0 0 0 []) (.writeReg 1 5)).host = .writeReg 1 5 :: [] ∧
    (act (st 0 0 0 []) (.writeReg 2 5)).host = .writeReg 2 5 :: [] ∧
    (act (st 0 0 0 []) (.writeReg 3 5)).host = .writeReg 3 5 :: [] ∧
    (act (st 0 0 0 []) (.writeReg 4 5)).host = .writeReg 4 5 :: [] ∧
    (act (st 0 0 0 []) (.writeReg 6 5)).host = .writeReg 6 5 :: [] := ⟨rfl, rfl, rfl, rfl, rfl, rfl⟩

/-- The first and the last byte of MEM, and an idle host. -/
theorem witness_HostMemoryWritesAndIdle :
    (act (st 0 0 0 []) (.writeMem 0 5)).host = .writeMem 0 5 :: [] ∧
    (act (st 0 0 0 []) (.writeMem 0xfff 5)).host = .writeMem 0xfff 5 :: [] ∧ 0xfff < (st 0 0 0 []).params.memSize ∧
    (st 0 0 0 []).host = [] := ⟨rfl, rfl, by decide, rfl⟩

/-- The first address past MEM. -/
theorem witness_StepStopsOnlyOutsideMemory :
    (act (st 0 0 0 []) (.writeMem 0x1000 5)).host = .writeMem 0x1000 5 :: [] ∧ (st 0 0 0 []).params.memSize ≤ 0x1000 :=
  ⟨rfl, by decide⟩

theorem witness_StepRunsDecodedCommand :
    (fullSt false 0 0x230).fault = false ∧ (fullSt false 0 0x230).host = .writeReg 0 0x230 :: [] ∧
    decode 0x230 = .ok (.aesInit .cbc) ∧ State.reset.fault = false ∧ decodeTableWord 32 0x230 = some (.aesInit .cbc) :=
  ⟨rfl, rfl, by decide, rfl, by decide⟩

/-- Each of the three reasons, and a legal word of each kind. -/
theorem witness_IllegalWordsRaise :
    (fullSt false 0 0x430).fault = false ∧ (fullSt false 0 0x430).host = .writeReg 0 0x430 :: [] ∧
    (0x00000430 : Word).extractLsb' 10 22 ≠ 0 ∧ opcListed ((0x00000014 : Word).extractLsb' 0 8) = false ∧
    ((0x00000131 : Word).extractLsb' 8 2 ≠ 0 ∧ (0x00000131 : Word).extractLsb' 0 8 ≠ 0x30) ∧
    ((0x00000330 : Word).extractLsb' 10 22 = 0 ∧ opcListed ((0x00000330 : Word).extractLsb' 0 8) = true ∧
      (0x00000330 : Word).extractLsb' 0 8 = 0x30) ∧
    ((0x00000042 : Word).extractLsb' 10 22 = 0 ∧ opcListed ((0x00000042 : Word).extractLsb' 0 8) = true ∧
      (0x00000042 : Word).extractLsb' 8 2 = 0) := by decide

theorem witness_CommandsMatchTheirMasks : decode 0x330 = .ok (.aesInit .reserved) := by decide

/-- A command that faults, for FaultChangesOnlyTheRecord, StatusRegisterFields, FaultCodesOfEachCommand,
ResultWrittenAsListed and MemoryWrittenOnlyInRange: AES.ENC on an uninitialized unit. -/
theorem witness_fault_entry :
    (st 0x300 0x200 16 []).fault = false ∧ (∃ t, exec .aesEnc (st 0x300 0x200 16 []) = .next t ∧ t.fault = true) ∧
    (act (st 0 0 0 []) (.writeReg 0 0x21)).host = .writeReg 0 0x21 :: [] ∧
    (∃ t, step (act (st 0 0 0 []) (.writeReg 0 0x21)) = .next t ∧ t.fault = true) ∧
    ∃ t, step (act (st 0 0 0 []) (.writeReg 0 0x14)) = .next t ∧ t.fault = true :=
  ⟨rfl, ⟨_, rfl, rfl⟩, rfl, ⟨_, rfl, rfl⟩, ⟨_, rfl, rfl⟩⟩

/-- One faulting state for each command that can fault, for FaultCodesOfEachCommand. -/
theorem witness_FaultCodesOfEachCommand :
    ∀ i ∈ [Instr.pkcs5PadLen, .pkcs5Pad, .pkcs5UnpadLen, .pkcs5ChkLen, .rc4Init, .rc4Enc, .rc4Dec, .aesEnc, .aesDec, .bfInit,
      .bfEnc, .bfDec], (nextOf (exec i (st 0 0 0 []))).map State.fault = some true := by decide

theorem witness_FaultCodesOfEachCommand_aesInit :
    ∃ t, exec (.aesInit .ecb) (st 0 0xff1 16 []) = .next t ∧ t.fault = true := ⟨_, rfl, rfl⟩

/-- No condition holds, and two hold at once, of which the lower is the one raised (V29). -/
theorem witness_LowestFaultCodeWins :
    (aesSt 0x200 0x200 16 [] .ecb none).fault = false ∧
    (∀ c : FaultCode, faultCondition .aesEnc (aesSt 0x200 0x200 16 [] .ecb none) c = false) ∧
    faultCondition .aesEnc (aesSt 0x208 0x200 16 [] .cbc none) .overlap = true ∧
    faultCondition .aesEnc (aesSt 0x208 0x200 16 [] .cbc none) .noIv = true ∧
    ∀ c : FaultCode, c.byte.toNat < FaultCode.overlap.byte.toNat →
      faultCondition .aesEnc (aesSt 0x208 0x200 16 [] .cbc none) c = false :=
  ⟨rfl, fun c => by cases c <;> rfl, by decide, by decide, fun c h => by cases c <;> first | rfl | exact absurd h (by decide)⟩

/-- A completing run of every command, for OperandsNeverWritten, ResultWrittenAsListed and MemoryWrittenOnlyInRange. -/
theorem witness_completing_runs :
    (∃ t, exec .pkcs5PadLen (st 5 8 0 []) = .next t ∧ t.fault = false) ∧
    (∃ t, exec .pkcs5Pad (st 0x100 5 8 []) = .next t ∧ t.fault = false) ∧
    (∃ t, exec .pkcs5UnpadLen (st 0x100 8 0 []) = .next t ∧ t.fault = false) ∧
    (∃ t, exec .pkcs5ChkLen (st 5 8 0 []) = .next t ∧ t.fault = false) ∧
    (∃ t, exec .rc4Init (st 0x100 3 0 []) = .next t ∧ t.fault = false) ∧
    (∃ t, exec .rc4Enc (rc4St 0x200 9 []) = .next t ∧ t.fault = false) ∧
    (∃ t, exec .rc4Dec (rc4St 0x200 9 []) = .next t ∧ t.fault = false) ∧
    (∃ t, exec (.aesInit .cbc) (st 0 0xfe0 32 []) = .next t ∧ t.fault = false) ∧
    (∃ t, exec .aesEnc (aesSt 0x300 0x200 16 [] .cbc (some zeroIv)) = .next t ∧ t.fault = false) ∧
    (∃ t, exec .aesDec (aesSt 0x300 0x200 16 [] .ecb none) = .next t ∧ t.fault = false) ∧
    (∃ t, exec .aesIsInit (st 0 0 0 []) = .next t ∧ t.fault = false) ∧
    (∃ t, exec .bfInit (st 0x100 56 0 []) = .next t ∧ t.fault = false) ∧
    (∃ t, exec .bfEnc (bfSt 0x300 0x200 8 []) = .next t ∧ t.fault = false) ∧
    (∃ t, exec .bfDec (bfSt 0x300 0x200 8 []) = .next t ∧ t.fault = false) :=
  ⟨⟨_, rfl, rfl⟩, ⟨_, rfl, rfl⟩, ⟨_, rfl, rfl⟩, ⟨_, rfl, rfl⟩, ⟨_, rfl, rfl⟩, ⟨_, rfl, rfl⟩, ⟨_, rfl, rfl⟩, ⟨_, rfl, rfl⟩,
    ⟨_, rfl, rfl⟩, ⟨_, rfl, rfl⟩, ⟨_, rfl, rfl⟩, ⟨_, rfl, rfl⟩, ⟨_, rfl, rfl⟩, ⟨_, rfl, rfl⟩⟩

/-- The last byte before and the first byte after those PKCS5.PAD writes. -/
theorem witness_MemoryWrittenOnlyInRange :
    ¬ InBytes (writtenRange .pkcs5Pad (st 0x100 5 8 [])) 0x104 ∧ ¬ InBytes (writtenRange .pkcs5Pad (st 0x100 5 8 [])) 0x108 ∧
    InBytes (writtenRange .pkcs5Pad (st 0x100 5 8 [])) 0x107 := by decide

theorem witness_ResultWrittenAsListed : (act (st 0 0 0 []) (.writeReg 4 9)).host = .writeReg 4 9 :: [] := rfl

/-- A step that changes each context: reset of all three, AES.INIT that fails, BF.INIT that fails, RC4.ENC. -/
theorem witness_ContextsChangedOnlyByTheirCommands :
    (∃ t, step (act (fullSt false 0 0) .reset) = .next t ∧ t.aes = none ∧ t.bf = none ∧ t.rc4 = none) ∧
    (∃ t, step (fullSt false 0 0x030) = .next t ∧ t.aes = none ∧ t.bf = some bfCtx) ∧
    (∃ t, step { fullSt false 0 0x040 with a1 := 57 } = .next t ∧ t.bf = none ∧ t.rc4 = some rc4Ctx) ∧
    (∃ t, step { fullSt false 0 0x021 with a1 := 1 } = .next t ∧ t.rc4.map Rc4Context.i = some 1) :=
  ⟨⟨_, rfl, rfl, rfl, rfl⟩, ⟨_, rfl, rfl, rfl⟩, ⟨_, rfl, rfl, rfl⟩, ⟨_, rfl, rfl⟩⟩

/-- A state that meets the invariant, and a step from it that writes memory. -/
theorem witness_EveryStepKeepsTheInvariant :
    (fullSt false 0 0x31).Inv ∧ ∃ t, step (fullSt false 0 0x31) = .next t ∧ t.fault = false := ⟨fullSt_inv _, _, rfl, rfl⟩

theorem witness_InvariantHoldsAfterReset :
    (⟨0x1000, true⟩ : Params).Wf ∧ Memory.wf [(0x100, 1), (0xfff, 2)] = true ∧
    Memory.below [(0x100, 1), (0xfff, 2)] 0x1000 = true := by decide

/-- Block sizes 0 and 256; overflow at 2^32 and the largest padded length, with block sizes 1, 8 and 255. -/
theorem witness_PadLenRule :
    ¬ (1 ≤ (0 : Word).toNat ∧ (0 : Word).toNat ≤ 255) ∧ ¬ (1 ≤ (256 : Word).toNat ∧ (256 : Word).toNat ≤ 255) ∧
    0xffffffff < padLen (0xfffffff8 : Word).toNat 8 ∧ 0xffffffff < padLen (0xffffffff : Word).toNat 1 ∧
    padLen (0xffffff00 : Word).toNat 255 ≤ 0xffffffff ∧ padLen (0xfffffff7 : Word).toNat 8 ≤ 0xffffffff := by decide

/-- Each fault, and the padded buffer that ends with the last byte of MEM. -/
theorem witness_PadRule :
    (st 0 5 8 []).a0 = 0 ∧
    ((st 0x100 5 256 []).a0 ≠ 0 ∧ ¬ (st 0x100 5 256 []).a2.toNat ≤ 255) ∧
    ((st 0x100 0xfffffff8 8 []).a0 ≠ 0 ∧ 0xffffffff < padLen (st 0x100 0xfffffff8 8 []).a1.toNat 8) ∧
    ((st 0xff9 1 8 []).a0 ≠ 0 ∧ padLen 1 8 ≤ 0xffffffff ∧ (st 0xff9 1 8 []).params.memSize < 0xff9 + padLen 1 8) ∧
    ((st 0xff8 1 8 []).a0 ≠ 0 ∧ padLen 1 8 ≤ 0xffffffff ∧ 0xff8 + padLen 1 8 ≤ (st 0xff8 1 8 []).params.memSize) := by decide

/-- Each fault, and the pad counts 0 and the whole length. -/
theorem witness_UnpadLenRule :
    (st 0 8 0 []).a0 = 0 ∧ ((st 0x100 0 0 []).a0 ≠ 0 ∧ (st 0x100 0 0 []).a1 = 0) ∧
    ((st 0xff9 8 0 []).a1 ≠ 0 ∧ (st 0xff9 8 0 []).params.memSize < 0xff9 + 8) ∧
    ((st 0xff8 8 0 []).a1 ≠ 0 ∧ 0xff8 + 8 ≤ (st 0xff8 8 0 []).params.memSize) ∧
    (st 0xff8 8 0 []).a1.toNat < (Memory.read [(0xfff, 9)] (0xff8 + 8 - 1)).toNat ∧
    (Memory.read [(0xfff, 8)] (0xff8 + 8 - 1)).toNat ≤ (st 0xff8 8 0 []).a1.toNat ∧
    (Memory.read [] (0xff8 + 8 - 1)).toNat ≤ (st 0xff8 8 0 []).a1.toNat := by decide

theorem witness_ChkLenRule :
    ¬ (1 ≤ (st 16 0 0 []).a1.toNat ∧ (st 16 0 0 []).a1.toNat ≤ 255) ∧
    ¬ (1 ≤ (st 16 256 0 []).a1.toNat ∧ (st 16 256 0 []).a1.toNat ≤ 255) ∧
    (1 ≤ (st 16 1 0 []).a1.toNat ∧ (st 16 255 0 []).a1.toNat ≤ 255) := by decide

theorem witness_PadThenUnpadReturnsLength : ∃ t, exec .pkcs5Pad (st 0x100 5 8 []) = .next t ∧ t.fault = false :=
  ⟨_, rfl, rfl⟩

/-- Each fault, and a key that ends with the last byte of MEM. -/
theorem witness_Rc4InitRule :
    (st 0 3 0 []).a0 = 0 ∧ ((st 0x100 0 0 []).a0 ≠ 0 ∧ (st 0x100 0 0 []).a1 = 0) ∧
    ((st 0xffe 3 0 []).a0 ≠ 0 ∧ (st 0xffe 3 0 []).a1 ≠ 0 ∧ (st 0xffe 3 0 []).params.memSize < 0xffe + 3) ∧
    ((st 0xffd 3 0 []).a0 ≠ 0 ∧ (st 0xffd 3 0 []).a1 ≠ 0 ∧ 0xffd + 3 ≤ (st 0xffd 3 0 []).params.memSize) := by decide

theorem witness_KsaUsesFirst256KeyBytes : 256 ≤ 256 ∧ 256 ≤ 300 := by decide

/-- Each fault, a buffer that ends with the last byte of MEM, and length 0 at the end of MEM. -/
theorem witness_Rc4EncDecRule :
    (st 0x200 9 0 []).rc4Init = false ∧ ((rc4St 0 9 []).rc4Init = true ∧ (rc4St 0 9 []).a0 = 0) ∧
    ((rc4St 0xff8 9 []).rc4Init = true ∧ (rc4St 0xff8 9 []).a0 ≠ 0 ∧ (rc4St 0xff8 9 []).params.memSize < 0xff8 + 9) ∧
    ((rc4St 0xff7 9 []).rc4 = some rc4Ctx ∧ (rc4St 0xff7 9 []).a0 ≠ 0 ∧ 0xff7 + 9 ≤ (rc4St 0xff7 9 []).params.memSize) ∧
    ((rc4St 0x1000 0 []).rc4 = some rc4Ctx ∧ (rc4St 0x1000 0 []).a0 ≠ 0 ∧
      0x1000 + 0 ≤ (rc4St 0x1000 0 []).params.memSize) := ⟨rfl, ⟨rfl, rfl⟩, ⟨rfl, by decide, by decide⟩,
        ⟨rfl, by decide, by decide⟩, ⟨rfl, by decide, by decide⟩⟩

/-- V12 with RC4_IJ_PERSIST true: 5 bytes, then the 4 after them. -/
theorem witness_Rc4StreamContinues :
    (rc4St 0x200 5 []).params.rc4IjPersist = true ∧
    (∃ t, exec .rc4Enc (rc4St 0x200 5 []) = .next t ∧ t.fault = false ∧
      ∃ u, exec .rc4Enc { t with a0 := 0x205, a1 := 4 } = .next u ∧ u.fault = false) ∧
    (0x205 : Word).toNat = (rc4St 0x200 5 []).a0.toNat + (rc4St 0x200 5 []).a1.toNat ∧
    (9 : Word).toNat = (rc4St 0x200 5 []).a1.toNat + (4 : Word).toNat :=
  ⟨rfl, ⟨_, rfl, rfl, _, rfl, rfl⟩, by decide, by decide⟩

/-- Key at 0x100, data at 0x103, just after it, and at 0xf7, just before it. -/
theorem witness_Rc4RoundTrip :
    (∃ s1, exec .rc4Init (st 0x100 3 0 []) = .next s1 ∧ s1.fault = false ∧
      ∃ s2, exec .rc4Enc { s1 with a0 := 0x103, a1 := 9 } = .next s2 ∧ s2.fault = false) ∧
    (st 0x100 3 0 []).a0.toNat + (st 0x100 3 0 []).a1.toNat ≤ (0x103 : Word).toNat ∧
    (0xf7 : Word).toNat + (9 : Word).toNat ≤ (st 0x100 3 0 []).a0.toNat :=
  ⟨⟨_, rfl, rfl, _, rfl, rfl⟩, by decide, by decide⟩

/-- Each reason for the recoverable failure; key range and IV range outside; both ranges ending with the last byte of MEM. -/
theorem witness_AesInitRule :
    ((ModeField.modeNone ≠ .ecb ∧ ModeField.modeNone ≠ .cbc) ∧ (ModeField.reserved ≠ .ecb ∧ ModeField.reserved ≠ .cbc)) ∧
    (st 0 0 16 []).a1 = 0 ∧
    ((st 0 0x100 20 []).a2 ≠ 16 ∧ (st 0 0x100 20 []).a2 ≠ 24 ∧ (st 0 0x100 20 []).a2 ≠ 32) ∧
    ((st 0 0xff1 16 []).a1 ≠ 0 ∧ (st 0 0xff1 16 []).a2 = 16 ∧ (st 0 0xff1 16 []).params.memSize < 0xff1 + 16) ∧
    ((st 0xff1 0x100 24 []).a0 ≠ 0 ∧ (st 0xff1 0x100 24 []).a2 = 24 ∧ (st 0xff1 0x100 24 []).params.memSize < 0xff1 + 16) ∧
    ((st 0xff0 0xfe0 32 []).a1 ≠ 0 ∧ (st 0xff0 0xfe0 32 []).a2 = 32 ∧
      ¬ (st 0xff0 0xfe0 32 []).params.memSize < 0xfe0 + 32 ∧ ¬ (st 0xff0 0xfe0 32 []).params.memSize < 0xff0 + 16) ∧
    ((st 0 0xff0 16 []).a0 = 0 ∧ ¬ (st 0 0xff0 16 []).params.memSize < 0xff0 + 16) := by decide

/-- A word of the key and the first word after it; the third case of the rule, and the last word of AES-256. -/
theorem witness_KeyExpandRule :
    3 < AesRounds.r10.nk ∧ AesRounds.r10.nk ≤ 4 ∧ 4 % AesRounds.r10.nk = 0 ∧ 43 < 4 * (AesRounds.r10.val + 1) ∧
    (AesRounds.r14.nk = 8 ∧ 12 % AesRounds.r14.nk = 4 ∧ 59 < 4 * (AesRounds.r14.val + 1)) := by decide

theorem witness_InverseScheduleRule :
    0 ≤ AesRounds.r10.val ∧ 10 ≤ AesRounds.r10.val ∧ (0 < 9 ∧ 9 < AesRounds.r10.val) ∧ 3 < 4 := by decide

/-- The first and the last full round of AES-128, the last of AES-256. -/
theorem witness_EncryptBlockRunsTheRounds_AesBlockRoundTrip : 1 ≤ 9 ∧ 9 < AesRounds.r10.val ∧ 13 < AesRounds.r14.val := by decide

/-- The first four fault clauses of a block command of 16-byte blocks, good operands in place, just below and just above the
source, and a buffer that ends with the last byte of MEM. -/
theorem witness_aes_operands :
    ((st 0 0x200 16 []).a0 = 0 ∧ (st 0x300 0 16 []).a1 = 0) ∧
    ((st 0x300 0x200 0 []).a2 = 0 ∧ (st 0x300 0x200 24 []).a2.toNat % 16 ≠ 0) ∧
    ((st 0xff1 0x200 16 []).params.memSize < 0xff1 + 16 ∧ (st 0xff1 0x200 16 []).a2.toNat % 16 = 0) ∧
    (0x20f < 0x200 + 16 ∧ 0x200 < 0x20f + 16 ∧ 0x20f + 16 ≤ (st 0x20f 0x200 16 []).params.memSize) ∧
    BlockOperandsGood 16 (st 0x200 0x200 16 []) ∧ BlockOperandsGood 16 (st 0x1f0 0x200 16 []) ∧
    BlockOperandsGood 16 (st 0x210 0x200 16 []) ∧ BlockOperandsGood 16 (st 0xff0 0x200 16 []) := by decide

/-- For AesEncRule and AesDecRule: no context, CBC without an IV, ECB, CBC with an IV. -/
theorem witness_AesEncRule_AesDecRule :
    (st 0x300 0x200 16 []).aes = none ∧
    (BlockOperandsGood 16 (aesSt 0x300 0x200 32 [] .cbc none) ∧ (aesCtx .cbc none).mode = .cbc ∧
      (aesCtx .cbc none).iv = none) ∧
    (BlockOperandsGood 16 (aesSt 0x300 0x200 32 [] .ecb none) ∧
      (aesSt 0x300 0x200 32 [] .ecb none).aes = some (aesCtx .ecb none) ∧ (aesCtx .ecb none).mode = .ecb) ∧
    ((aesSt 0x300 0x200 32 [] .cbc (some zeroIv)).aes = some (aesCtx .cbc (some zeroIv)) ∧
      (aesCtx .cbc (some zeroIv)).mode = .cbc ∧ (aesCtx .cbc (some zeroIv)).iv = some zeroIv) :=
  ⟨rfl, ⟨by decide, rfl, rfl⟩, ⟨by decide, rfl, rfl⟩, ⟨rfl, rfl, rfl⟩⟩

/-- Into the source's place, in place, and just above. -/
theorem witness_AesCommandRoundTrip :
    (aesSt 0x300 0x200 16 [] .cbc (some zeroIv)).aes = some (aesCtx .cbc (some zeroIv)) ∧
    (aesCtx .cbc (some zeroIv)).dk = invKeySchedule (aesCtx .cbc (some zeroIv)).ek ∧
    (∃ t, exec .aesEnc (aesSt 0x300 0x200 16 [] .cbc (some zeroIv)) = .next t ∧ t.fault = false) ∧
    ((0xff0 : Word) ≠ 0 ∧ (0xff0 : Word).toNat + 16 ≤ (st 0x300 0x200 16 []).params.memSize) ∧
    ((0x2f0 : Word).toNat + 16 ≤ 0x300 ∧ 0x300 + 16 ≤ (0x310 : Word).toNat ∧ (0x300 : Word) = (st 0x300 0x200 16 []).a0) :=
  ⟨rfl, rfl, ⟨_, rfl, rfl⟩, by decide, by decide⟩

/-- Two states that differ outside the source: in memory, in the other units and in RC4_IJ_PERSIST. -/
theorem witness_AesOutputFromContextAndSourceOnly :
    let s1 := aesSt 0x300 0x200 16 [(0x20f, 1)] .ecb none
    let s2 := { aesSt 0x300 0x200 16 [(0x1ff, 7), (0x20f, 1), (0x210, 9)] .ecb none with
      bf := some bfCtx, res := 3, params := ⟨0x1000, false⟩ }
    s1.params.rc4IjPersist ≠ s2.params.rc4IjPersist ∧
    s1.fault = false ∧ s2.fault = false ∧ s1.aes = s2.aes ∧ s1.params.memSize = s2.params.memSize ∧ s1.a0 = s2.a0 ∧ s1.a1 = s2.a1 ∧
    s1.a2 = s2.a2 ∧ (∀ k, k < s1.a2.toNat → s1.mem.read (s1.a1.toNat + k) = s2.mem.read (s1.a1.toNat + k)) ∧
    (∃ t1, exec .aesEnc s1 = .next t1 ∧ t1.fault = false) ∧ (∃ t2, exec .aesEnc s2 = .next t2) ∧
    (∃ t1, exec .aesDec s1 = .next t1 ∧ t1.fault = false) ∧ ∃ t2, exec .aesDec s2 = .next t2 :=
  ⟨by decide, rfl, rfl, rfl, rfl, rfl, rfl, rfl, by decide, ⟨_, rfl, rfl⟩, ⟨_, rfl⟩, ⟨_, rfl, rfl⟩, ⟨_, rfl⟩⟩

theorem witness_UninitializedUnitsFault :
    (st 0 0 0 []).rc4Init = false ∧ (st 0 0 0 []).aesInit = false ∧ (st 0 0 0 []).bfInit = false ∧
    (∃ t, exec (.aesInit .modeNone) (aesSt 0 0x100 16 [] .ecb none) = .next t ∧ t.fault = false ∧ t.res = 0) ∧
    ∃ t, exec .bfInit (bfSt 0x100 57 0 []) = .next t ∧ t.fault = false ∧ t.res = 0 :=
  ⟨rfl, rfl, rfl, ⟨_, rfl, rfl, rfl⟩, ⟨_, rfl, rfl, rfl⟩⟩

/-- A key of three bytes: the position runs 0, 1, 2, 0, .... -/
theorem witness_BfKeyXorRule :
    0 < 3 ∧ (fun i => 4 * i % 3) 0 = 0 ∧ ∀ i, (fun i => 4 * i % 3) (i + 1) = ((fun i => 4 * i % 3) i + 4) % 3 :=
  ⟨by decide, rfl, fun i => by simp only; omega⟩

/-- Each clause: key lengths 0, 57, 1 and 56; a key range that leaves MEM and one that ends with its last byte. -/
theorem witness_BfInitRule :
    (st 0 8 0 []).a0 = 0 ∧ ((st 0x100 0 0 []).a0 ≠ 0 ∧ (st 0x100 0 0 []).a1 = 0) ∧ 56 < (st 0x100 57 0 []).a1.toNat ∧
    ((st 0xfc9 56 0 []).a1 ≠ 0 ∧ (st 0xfc9 56 0 []).a1.toNat ≤ 56 ∧ (st 0xfc9 56 0 []).params.memSize < 0xfc9 + 56) ∧
    ((st 0xfc8 56 0 []).a1.toNat ≤ 56 ∧ 0xfc8 + 56 ≤ (st 0xfc8 56 0 []).params.memSize) ∧
    ((st 0xfff 1 0 []).a1 ≠ 0 ∧ 0xfff + 1 ≤ (st 0xfff 1 0 []).params.memSize) := by decide

/-- The four fault clauses of a block command of 8-byte blocks, and good operands. -/
theorem witness_BfEncDecRule :
    ((st 0x300 0x200 8 []).bf = none ∧ (bfSt 0x300 0x200 8 []).bf = some bfCtx) ∧
    ((st 0 0x200 8 []).a0 = 0 ∧ (st 0x300 0 8 []).a1 = 0) ∧
    ((st 0x300 0x200 0 []).a2 = 0 ∧ (st 0x300 0x200 12 []).a2.toNat % 8 ≠ 0) ∧
    ((st 0x300 0xff9 8 []).params.memSize < 0xff9 + 8 ∧ (st 0x300 0xff9 8 []).a2.toNat % 8 = 0) ∧
    (0x207 < 0x200 + 8 ∧ 0x200 < 0x207 + 8 ∧ 0x207 + 8 ≤ (st 0x207 0x200 8 []).params.memSize) ∧
    BlockOperandsGood 8 (st 0x200 0x200 8 []) ∧ BlockOperandsGood 8 (st 0x1f8 0x200 8 []) ∧
    BlockOperandsGood 8 (st 0x208 0x200 8 []) ∧ BlockOperandsGood 8 (st 0xff8 0x200 8 []) :=
  ⟨⟨rfl, rfl⟩, by decide, by decide, by decide, by decide, by decide, by decide, by decide, by decide⟩

theorem witness_BfCommandRoundTrip :
    (∃ t, exec .bfEnc (bfSt 0x300 0x200 8 []) = .next t ∧ t.fault = false) ∧
    ((0xff8 : Word) ≠ 0 ∧ (0xff8 : Word).toNat + 8 ≤ (st 0x300 0x200 8 []).params.memSize) ∧
    ((0x2f8 : Word).toNat + 8 ≤ 0x300 ∧ 0x300 + 8 ≤ (0x308 : Word).toNat ∧ (0x300 : Word) = (st 0x300 0x200 8 []).a0) :=
  ⟨⟨_, rfl, rfl⟩, by decide, by decide⟩

/-- A line with a number, the largest number and the symbol NULL; and the command without operands. -/
theorem witness_CommandLineActions :
    ([0x300, 0xffffffff, 0] : List Word).length = operandCount .aesEnc ∧
    List.Forall₂ (fun (o : Operand) (v : Word) => o = .num v.toNat ∨ ∃ name, o = .sym name ∧
      startSymbols.lookup name = some v.toNat) [.num 0x300, .num 0xffffffff, .sym "NULL"] [0x300, 0xffffffff, 0] ∧
    ([] : List Word).length = operandCount .aesIsInit :=
  ⟨rfl, .cons (.inl rfl) (.cons (.inl rfl) (.cons (.inr ⟨"NULL", rfl, rfl⟩) .nil)), rfl⟩

/-- A name that is not defined yet. -/
theorem witness_PseudoLineActions : startSymbols.lookup "key" = none := by decide

/-- A run of actions; a script cut in two, whose second part uses the symbol of the first; and a line that is no `.equ`. -/
theorem witness_ScriptRunsInOrder :
    (∃ t, runActions [HostAction.writeReg 1 5, .writeReg 2 8, .writeReg 0 0x10].length
      { st 0 0 0 [] with host := [.writeReg 1 5, .writeReg 2 8, .writeReg 0 0x10] } = .next t ∧ t.res = 8) ∧
    (∃ actions, scriptActions startSymbols [.equ "size" 8, .cmd .pkcs5PadLen [.num 5, .sym "size"]] = some actions) ∧
    (∃ t, (st 0 0 0 []).runScript [.equ "size" 8, .set 0 (.num 5)] = some (.next t) ∧ t.a0 = 5) ∧
    (∃ actions, scriptActions ([ScriptLine.equ "size" 8, .set 0 (.num 5)].foldl lineSymbols startSymbols)
      [.cmd .pkcs5PadLen [.num 5, .sym "size"]] = some actions) ∧
    (∀ name x, ScriptLine.reset ≠ .equ name x) ∧ "NULL" ≠ "size" :=
  ⟨⟨_, rfl, by decide⟩, ⟨_, rfl⟩, ⟨_, rfl, rfl⟩, ⟨_, rfl⟩, fun _ _ => nofun, by decide⟩

/-- A script without actions: it uses a symbol on the line before its `.equ` (log entry 16). -/
theorem witness_ScriptRunsInOrder_forward_reference :
    scriptActions startSymbols [.set 0 (.sym "key"), .equ "key" 0x100] = none := by decide

/-- The first byte of the first word and the last byte of the last word of a block. -/
theorem witness_BlockLoadAndStore :
    ([1, 2, 3, 4] : List Word)[0]? = some 1 ∧ ([1, 2, 3, 4] : List Word)[3]? = some 4 ∧ ([1, 2] : List Word)[1]? = some 2 ∧
    0 < 4 ∧ 3 < 4 := by decide

end Sys2Proof.Tests
end

/-! SUPPORT. What a command can do, said once: it ends with fault entry under its own OPC byte, or it completes in one of the
ways listed by `Completes`. -/

namespace Sys2Proof.Machine

open Sys2Proof

/-- `Completes i s t`: command `i` passes its checks on `s` and leaves `t`. One constructor per way to complete, with the
checks that passed; AES.INIT and BF.INIT have two, success and the recoverable failure of 60 R271. -/
inductive Completes : Instr → State → State → Prop where
  | padLen {s : State} (hb : 1 ≤ s.a1.toNat ∧ s.a1.toNat ≤ 255) (hp : padLen s.a0.toNat s.a1.toNat ≤ 0xffffffff) :
    Completes .pkcs5PadLen s (s.setRes (BitVec.ofNat 32 (padLen s.a0.toNat s.a1.toNat)))
  | pad {s : State} (h0 : s.a0 ≠ 0) (hb : 1 ≤ s.a2.toNat ∧ s.a2.toNat ≤ 255)
    (hp : padLen s.a1.toNat s.a2.toNat ≤ 0xffffffff)
    (hr : s.a0.toNat + padLen s.a1.toNat s.a2.toNat ≤ s.params.memSize) :
    Completes .pkcs5Pad s (s.setMem (padBytes s.mem s.a0.toNat s.a1.toNat (padLen s.a1.toNat s.a2.toNat)))
  | unpadLen {s : State} (h0 : s.a0 ≠ 0) (h1 : s.a1 ≠ 0) (hr : s.a0.toNat + s.a1.toNat ≤ s.params.memSize)
    (hv : (lastByte s.mem s.a0.toNat s.a1.toNat).toNat ≤ s.a1.toNat) :
    Completes .pkcs5UnpadLen s (s.setRes (s.a1 - (lastByte s.mem s.a0.toNat s.a1.toNat).zeroExtend 32))
  | chkLen {s : State} (hb : 1 ≤ s.a1.toNat ∧ s.a1.toNat ≤ 255) :
    Completes .pkcs5ChkLen s (s.setRes (if s.a0.toNat % s.a1.toNat = 0 then 1 else 0))
  | rc4Init {s : State} (h0 : s.a0 ≠ 0) (h1 : s.a1 ≠ 0) (hr : s.a0.toNat + s.a1.toNat ≤ s.params.memSize) :
    Completes .rc4Init s (s.setRc4 ⟨ksa (fun k => s.mem.read (s.a0.toNat + k)) s.a1.toNat, 0, 0⟩)
  | rc4Enc {s : State} {c : Rc4Context} (hc : s.rc4 = some c) (h0 : s.a0 ≠ 0)
    (hr : s.a0.toNat + s.a1.toNat ≤ s.params.memSize) :
    Completes .rc4Enc s { s with
      mem := (rc4Crypt (rc4Start s.params c) s.mem s.a0.toNat s.a1.toNat).2,
      rc4 := some (rc4Crypt (rc4Start s.params c) s.mem s.a0.toNat s.a1.toNat).1, res := s.a1 }
  | rc4Dec {s : State} {c : Rc4Context} (hc : s.rc4 = some c) (h0 : s.a0 ≠ 0)
    (hr : s.a0.toNat + s.a1.toNat ≤ s.params.memSize) :
    Completes .rc4Dec s { s with
      mem := (rc4Crypt (rc4Start s.params c) s.mem s.a0.toNat s.a1.toNat).2,
      rc4 := some (rc4Crypt (rc4Start s.params c) s.mem s.a0.toNat s.a1.toNat).1, res := s.a1 }
  | aesInit {mode : ModeField} {s : State} {m : AesMode} {nr : AesRounds} (hm : cipherModeOf mode = some m)
    (hn : AesRounds.ofKeyLength s.a2.toNat = some nr) (h1 : s.a1 ≠ 0)
    (hk : s.a1.toNat + s.a2.toNat ≤ s.params.memSize) (hiv : s.a0 = 0 ∨ s.a0.toNat + 16 ≤ s.params.memSize) :
    Completes (.aesInit mode) s ((s.setAes (some (aesContext s.mem s.a0 s.a1 nr m))).setRes 1)
  | aesInitFails {mode : ModeField} {s : State} (h : aesInitRefused mode s = true) :
    Completes (.aesInit mode) s (aesInitFails s)
  | aesEnc {s : State} {c : AesContext} {chain : Option Block} (hc : s.aes = some c) (hb : s.blockFault 16 = none)
    (hch : c.startChain = some chain) :
    Completes .aesEnc s { s with
      mem := aesEncMem c chain s.mem s.a0.toNat s.a1.toNat (s.a2.toNat / 16), res := s.a2 }
  | aesDec {s : State} {c : AesContext} {chain : Option Block} (hc : s.aes = some c) (hb : s.blockFault 16 = none)
    (hch : c.startChain = some chain) :
    Completes .aesDec s { s with
      mem := aesDecMem c chain s.mem s.a0.toNat s.a1.toNat (s.a2.toNat / 16), res := s.a2 }
  | aesIsInit {s : State} : Completes .aesIsInit s (s.setRes (if s.aesInit then 1 else 0))
  | bfInit {s : State} (h0 : s.a0 ≠ 0) (h1 : s.a1 ≠ 0) (hl : s.a1.toNat ≤ 56)
    (hr : s.a0.toNat + s.a1.toNat ≤ s.params.memSize) :
    Completes .bfInit s
      ((s.setBf (some (bfSchedule (fun k => s.mem.read (s.a0.toNat + k)) s.a1.toNat))).setRes 1)
  | bfInitFails {s : State} (h0 : s.a0 ≠ 0) (h : bfInitRefused s = true) :
    Completes .bfInit s ((s.setBf none).setRes 0)
  | bfEnc {s : State} {c : BfContext} (hc : s.bf = some c) (hb : s.blockFault 8 = none) :
    Completes .bfEnc s { s with mem := bfMem (bfEncryptBlock c) s.mem s.a0.toNat s.a1.toNat (s.a2.toNat / 8) }
  | bfDec {s : State} {c : BfContext} (hc : s.bf = some c) (hb : s.blockFault 8 = none) :
    Completes .bfDec s { s with mem := bfMem (bfDecryptBlock c) s.mem s.a0.toNat s.a1.toNat (s.a2.toNat / 8) }

/-- `o` is how command `i` ends on `s`: fault entry under the command's OPC byte, or completion. -/
def Ends (i : Instr) (s : State) (o : StepOutcome) : Prop :=
  (∃ code, o = raise code (opcOf i) s) ∨ ∃ t, o = .next t ∧ Completes i s t

theorem Ends.of_raise {i : Instr} {s : State} (code : FaultCode) : Ends i s (raise code (opcOf i) s) := .inl ⟨code, rfl⟩

theorem Completes.ends {i : Instr} {s t : State} (h : Completes i s t) : Ends i s (.next t) := .inr ⟨t, rfl, h⟩

/-- A check of a command: where it fails the command faults, where it passes the rest of the command decides. -/
theorem Ends.check {i : Instr} {s : State} {o : StepOutcome} {b : Bool} (code : FaultCode)
    (h : b = false → Ends i s o) : Ends i s (if b = true then raise code (opcOf i) s else o) := by
  cases b with
  | true => exact .of_raise code
  | false => exact h rfl

theorem execPkcs5PadLen_ends (s : State) : Ends .pkcs5PadLen s (execPkcs5PadLen s) :=
  .check .blockSize fun hb => .check .overflow fun hp =>
    (Completes.padLen (by simpa using hb) (by simpa [padOverflows] using hp)).ends

theorem execPkcs5Pad_ends (s : State) : Ends .pkcs5Pad s (execPkcs5Pad s) :=
  .check .nullPtr fun h0 => .check .blockSize fun hb => .check .overflow fun hp => .check .bounds fun hr =>
    (Completes.pad (by simpa using h0) (by simpa using hb) (by simpa [padOverflows] using hp) (by simpa using hr)).ends

theorem execPkcs5UnpadLen_ends (s : State) : Ends .pkcs5UnpadLen s (execPkcs5UnpadLen s) := by
  unfold execPkcs5UnpadLen
  refine .check .nullPtr fun h0 => .check .length fun h1 => .check .bounds fun hr => ?_
  split
  · exact .of_raise .padValue
  · next hv => exact (Completes.unpadLen (by simpa using h0) (by simpa using h1) (by simpa using hr) (by omega)).ends

theorem execPkcs5ChkLen_ends (s : State) : Ends .pkcs5ChkLen s (execPkcs5ChkLen s) :=
  .check .blockSize fun hb => (Completes.chkLen (by simpa using hb)).ends

theorem execRc4Init_ends (s : State) : Ends .rc4Init s (execRc4Init s) :=
  .check .nullPtr fun h0 => .check .keyLen fun h1 => .check .bounds fun hr =>
    (Completes.rc4Init (by simpa using h0) (by simpa using h1) (by simpa using hr)).ends

theorem execRc4Enc_ends (s : State) : Ends .rc4Enc s (execRc4Enc s) :=
  (rc4Command_cases 0x21 s).imp_right fun ⟨_, hc, h0, hr, ht⟩ => ⟨_, ht, .rc4Enc hc h0 hr⟩

theorem execRc4Dec_ends (s : State) : Ends .rc4Dec s (execRc4Dec s) :=
  (rc4Command_cases 0x22 s).imp_right fun ⟨_, hc, h0, hr, ht⟩ => ⟨_, ht, .rc4Dec hc h0 hr⟩

/-- AES.INIT first decides whether it fails recoverably (42 R190), then checks the ranges. -/
theorem execAesInit_ends (mode : ModeField) (s : State) : Ends (.aesInit mode) s (execAesInit mode s) := by
  unfold execAesInit
  split
  · next m nr hm hn =>
    split
    · next h1 => exact (Completes.aesInitFails (by simp [aesInitRefused, h1])).ends
    · next h1 =>
      refine .check .bounds fun hk => .check .bounds fun hiv => ?_
      exact (Completes.aesInit hm hn (by simpa using h1) (by simpa using hk) (by simpa [or_iff_not_imp_left] using hiv)).ends
  · next hno =>
    refine (Completes.aesInitFails ?_).ends
    cases hm : cipherModeOf mode with
    | none => simp [aesInitRefused, hm]
    | some m =>
      cases hn : AesRounds.ofKeyLength s.a2.toNat with
      | none => simp [aesInitRefused, hn]
      | some nr => exact absurd hn (hno m nr hm)

theorem execAesEnc_ends (s : State) : Ends .aesEnc s (execAesEnc s) :=
  (aesCommand_cases 0x31 aesEncMem s).imp_right fun ⟨_, _, hc, hb, hch, ht⟩ => ⟨_, ht, .aesEnc hc hb hch⟩

theorem execAesDec_ends (s : State) : Ends .aesDec s (execAesDec s) :=
  (aesCommand_cases 0x32 aesDecMem s).imp_right fun ⟨_, _, hc, hb, hch, ht⟩ => ⟨_, ht, .aesDec hc hb hch⟩

/-- BF.INIT decides on the recoverable failure after the null check and before the range (44 R247). -/
theorem execBfInit_ends (s : State) : Ends .bfInit s (execBfInit s) := by
  unfold execBfInit
  refine .check .nullPtr fun h0 => ?_
  have hne : s.a0 ≠ 0 := by simpa using h0
  split
  · next hl => exact (Completes.bfInitFails hne hl).ends
  · next hl =>
    obtain ⟨h1, h56⟩ : s.a1 ≠ 0 ∧ s.a1.toNat ≤ 56 := by simpa using hl
    exact .check .bounds fun hr => (Completes.bfInit hne h1 h56 (by simpa using hr)).ends

theorem execBfEnc_ends (s : State) : Ends .bfEnc s (execBfEnc s) :=
  (bfCommand_cases 0x41 bfEncryptBlock s).imp_right fun ⟨_, hc, hb, ht⟩ => ⟨_, ht, .bfEnc hc hb⟩

theorem execBfDec_ends (s : State) : Ends .bfDec s (execBfDec s) :=
  (bfCommand_cases 0x42 bfDecryptBlock s).imp_right fun ⟨_, hc, hb, ht⟩ => ⟨_, ht, .bfDec hc hb⟩

/-- Every command faults or completes. -/
theorem exec_ends (i : Instr) (s : State) : Ends i s (exec i s) :=
  match i with
  | .pkcs5PadLen => execPkcs5PadLen_ends s
  | .pkcs5Pad => execPkcs5Pad_ends s
  | .pkcs5UnpadLen => execPkcs5UnpadLen_ends s
  | .pkcs5ChkLen => execPkcs5ChkLen_ends s
  | .rc4Init => execRc4Init_ends s
  | .rc4Enc => execRc4Enc_ends s
  | .rc4Dec => execRc4Dec_ends s
  | .aesInit mode => execAesInit_ends mode s
  | .aesEnc => execAesEnc_ends s
  | .aesDec => execAesDec_ends s
  | .aesIsInit => Completes.aesIsInit.ends
  | .bfInit => execBfInit_ends s
  | .bfEnc => execBfEnc_ends s
  | .bfDec => execBfDec_ends s

/-- The padded length PADLEN returns fits RES (40 R151). -/
theorem toNat_ofNat_padLen {length blockSize : Nat} (h : padLen length blockSize ≤ 0xffffffff) :
    (BitVec.ofNat 32 (padLen length blockSize)).toNat = padLen length blockSize := by
  rw [BitVec.toNat_ofNat, Nat.mod_eq_of_lt (by omega)]

/-- The unpadded length UNPADLEN returns does not wrap (40 R153). -/
theorem toNat_sub_zeroExtend {w : Word} {b : Byte} (h : b.toNat ≤ w.toNat) :
    (w - b.zeroExtend 32).toNat = w.toNat - b.toNat := by
  have hb : (b.zeroExtend 32).toNat = b.toNat := BitVec.toNat_setWidth_of_le (by decide)
  rw [BitVec.toNat_sub_of_le (by rwa [BitVec.le_def, hb]), hb]

/-- The two kinds of next state a command can give. -/
theorem exec_next_cases {i : Instr} {s t : State} (h : exec i s = .next t) :
    (∃ code, t = s.enterFault code (opcOf i)) ∨ Completes i s t := by
  obtain ⟨code, hraise⟩ | ⟨u, hu, hc⟩ := exec_ends i s
  · exact .inl ⟨code, Host.Outcome.next.inj (h.symm.trans hraise)⟩
  · cases hu.symm.trans h
    exact .inr hc

theorem Completes.fault_eq {i : Instr} {s t : State} (h : Completes i s t) : t.fault = s.fault := by
  cases h <;> rfl

/-- A command that ends with FAULT = 1 where FAULT was 0 ended with fault entry (60 R272). -/
theorem exec_enterFault {i : Instr} {s t : State} (hs : s.fault = false) (h : exec i s = .next t) (ht : t.fault = true) :
    ∃ code, t = s.enterFault code (opcOf i) :=
  (exec_next_cases h).resolve_right fun hc => by simp [hc.fault_eq, hs] at ht

/-- A command that ends with FAULT = 0 completed. -/
theorem exec_completes {i : Instr} {s t : State} (h : exec i s = .next t) (ht : t.fault = false) : Completes i s t :=
  (exec_next_cases h).resolve_left fun ⟨_, hcode⟩ => by simp [hcode] at ht

end Sys2Proof.Machine

/-! SUPPORT. The host's registers: a write to one of them as a step, a read of an index that does not exist, and the fields of
STATUS one by one. -/

namespace Sys2Proof.Machine

open Sys2Proof

/-- A step takes the host's next action. -/
theorem step_of_host {s : State} {a : HostAction} {rest : List HostAction} (h : s.host = a :: rest) :
    step s = hostAct a { s with host := rest } := by
  simp only [step, hostNext, h]

/-- RES, STATUS and the indices that do not exist ignore writes (10 R28). -/
theorem hostWriteReg_ignored {n : Nat} (hn : 4 ≤ n) (v : Word) (s : State) : hostWriteReg n v s = .next s :=
  match n, hn with
  | _ + 4, _ => rfl

theorem step_writeReg_ignored {s : State} {n : Nat} {v : Word} {rest : List HostAction} (hn : 4 ≤ n)
    (h : s.host = .writeReg n v :: rest) : step s = .next { s with host := rest } :=
  (step_of_host h).trans (hostWriteReg_ignored hn v _)

theorem State.hostReadReg_absent (s : State) {n : Nat} (hn : 6 ≤ n) : s.hostReadReg n = 0 :=
  match n, hn with
  | _ + 6, _ => rfl

/-! STATUS is one concatenation (10 R27): reading a field skips the cells that stand below it. -/

@[simp] theorem State.status_err (s : State) : s.status.extractLsb' 8 8 = s.err := by
  simp (disch := omega) only [status, BitVec.extractLsb'_append_eq_of_le, BitVec.extractLsb'_append_eq_of_add_le,
    BitVec.extractLsb'_eq_self, Nat.reduceSub]

@[simp] theorem State.status_fopc (s : State) : s.status.extractLsb' 16 8 = s.fopc := by
  simp (disch := omega) only [status, BitVec.extractLsb'_append_eq_of_le, BitVec.extractLsb'_append_eq_of_add_le,
    BitVec.extractLsb'_eq_self, Nat.reduceSub]

/-- The flag bits and the two reserved fields. -/
theorem State.status_flags (s : State) :
    s.status.extractLsb' 0 1 = BitVec.ofBool s.fault ∧ s.status.extractLsb' 1 1 = BitVec.ofBool s.rc4Init ∧
    s.status.extractLsb' 2 1 = BitVec.ofBool s.aesInit ∧ s.status.extractLsb' 3 1 = BitVec.ofBool s.bfInit ∧
    s.status.extractLsb' 4 2 = s.aesMode ∧ s.status.extractLsb' 6 1 = BitVec.ofBool s.aesIvValid ∧
    s.status.extractLsb' 7 1 = 0 ∧ s.status.extractLsb' 24 8 = 0 := by
  refine ⟨?_, ?_, ?_, ?_, ?_, ?_, ?_, ?_⟩ <;>
    simp (disch := omega) only [status, bit, BitVec.extractLsb'_append_eq_of_le,
      BitVec.extractLsb'_append_eq_of_add_le, BitVec.extractLsb'_eq_self, Nat.reduceSub]

@[simp] theorem State.afterReset_status (p : Params) (m : Memory) (h : List HostAction) :
    (State.afterReset p m h).status = 0 :=
  show (0 : BitVec 8) ++ (0 : Byte) ++ (0 : Byte) ++ (0 : BitVec 1) ++ bit false ++ (0 : BitVec 2) ++ bit false ++
    bit false ++ bit false ++ bit false = (0 : Word) by decide

/-- `AES.Mode` is never 3 (10 R27). -/
theorem State.aesMode_ne_three (s : State) : s.aesMode ≠ 3 := by
  unfold aesMode
  split
  · decide
  · next c _ => cases c.mode <;> decide

/-- FOPC names the command that faulted (60 R272). -/
theorem exec_fault_fopc {i : Instr} {s t : State} (hs : s.fault = false) (h : exec i s = .next t) (ht : t.fault = true) :
    t.fopc = opcOf i := by
  obtain ⟨code, rfl⟩ := exec_enterFault hs h ht
  rfl

end Sys2Proof.Machine

namespace Sys2Proof.Proofs

open Sys2Proof Sys2Proof.Machine

/-- Settles O4: each field by its lemma; FOPC because a command faults only by fault entry. -/
theorem statusRegisterFields : Obligations.StatusRegisterFields := by
  unfold Obligations.StatusRegisterFields
  refine ⟨fun s => ?_, fun s hs hf => ?_, fun s hs hf => ?_, fun i s t hs h ht => ?_, fun s v rest h => ?_⟩
  · obtain ⟨hfault, hrc4, haes, hbf, hmode, hiv, hbit7, hhigh⟩ := s.status_flags
    exact ⟨hfault, hrc4, haes, hbf, hmode, s.aesMode_ne_three, hiv, hbit7, s.status_err, s.status_fopc, hhigh⟩
  · simpa using hs.noRecord hf
  · simpa using hs.record hf
  · simpa using exec_fault_fopc hs h ht
  · exact step_writeReg_ignored (by decide) h

/-- Settles O18: a command faults by fault entry, which keeps RES, or it completes in one of the listed ways. -/
theorem resultWrittenAsListed : Obligations.ResultWrittenAsListed := by
  unfold Obligations.ResultWrittenAsListed
  refine ⟨fun i s t hs h ht => ?_, fun i s t h ht => ?_, fun s v rest h => step_writeReg_ignored (by decide) h, fun s => rfl⟩
  · obtain ⟨code, rfl⟩ := exec_enterFault hs h ht
    rfl
  · cases exec_completes h ht with
    | padLen hb hp => exact toNat_ofNat_padLen hp
    | unpadLen h0 h1 hr hv => exact toNat_sub_zeroExtend hv
    | aesIsInit => simp [State.aesInit]
    | _ => rfl

/-- Settles O1: the fields of `State.afterReset`, and the flags and STATUS as views of them. -/
theorem resetGivesEveryRegisterItsValue : Obligations.ResetGivesEveryRegisterItsValue := by
  unfold Obligations.ResetGivesEveryRegisterItsValue
  refine ⟨fun p m h => ?_, launchParams, [], [], rfl⟩
  exact ⟨rfl, rfl, rfl, rfl, rfl, rfl, rfl, rfl, rfl, rfl, rfl, rfl, rfl, rfl, rfl, rfl,
    State.afterReset_status p m h⟩

/-- Settles O5: each index by the equation of its read and its write. -/
theorem hostRegisterSpace : Obligations.HostRegisterSpace := by
  unfold Obligations.HostRegisterSpace
  refine ⟨fun s => ⟨rfl, rfl, rfl, rfl, rfl, rfl, fun n hn => s.hostReadReg_absent hn⟩, fun s v rest => ?_⟩
  exact ⟨step_of_host, step_of_host, step_of_host, step_of_host, fun n hn => step_writeReg_ignored hn⟩

end Sys2Proof.Proofs

/-! SUPPORT. The AES tables against the field arithmetic of spec/11: xtime and gmul as the rule says them, the inverse by
uniqueness, and the substitution table as the one that carries the inverses. -/

namespace Sys2Proof.Machine

open Sys2Proof

/-! The field (11 R61). -/

/-- xtime is the 9-bit shift reduced by 0x11b: the bit shifted out is the byte's msb, and the reduction clears it. -/
theorem xtime_eq_reduce (a : Byte) :
    xtime a = (if (a.zeroExtend 9 <<< 1).getLsbD 8 then (a.zeroExtend 9 <<< 1) ^^^ 0x11b
      else a.zeroExtend 9 <<< 1).extractLsb' 0 8 := by
  have hbit : (a.zeroExtend 9 <<< 1).getLsbD 8 = a.msb := by simp [BitVec.msb_eq_getLsbD_last]
  have hshift : (a.zeroExtend 9 <<< 1).extractLsb' 0 8 = a <<< 1 := by
    ext i hi
    simp only [BitVec.truncate_eq_setWidth, BitVec.getElem_extractLsb', BitVec.getLsbD_shiftLeft, BitVec.getLsbD_setWidth,
      BitVec.getElem_shiftLeft]
    grind
  rw [hbit, xtime, apply_ite (BitVec.extractLsb' 0 8), BitVec.extractLsb'_xor, hshift]
  rfl

/-- The pair of gmul's loop after `n` of its eight passes: the sum so far, and the first factor times 2 to the `n`. -/
def gmulLoop (a b : Byte) (n : Nat) : Byte × Byte :=
  Nat.fold n (fun k _ (ra : Byte × Byte) => (if b.getLsbD k then ra.1 ^^^ ra.2 else ra.1, xtime ra.2)) (0, a)

theorem gmulLoop_succ (a b : Byte) (n : Nat) :
    gmulLoop a b (n + 1) = (if b.getLsbD n then (gmulLoop a b n).1 ^^^ (gmulLoop a b n).2 else (gmulLoop a b n).1,
      xtime (gmulLoop a b n).2) := rfl

theorem gmul_eq_gmulLoop (a b : Byte) : gmul a b = (gmulLoop a b 8).1 := rfl

/-- The affine map of the substitution (11 R62). -/
def sboxAffine (b : Byte) : Byte :=
  b ^^^ b.rotateLeft 1 ^^^ b.rotateLeft 2 ^^^ b.rotateLeft 3 ^^^ b.rotateLeft 4 ^^^ 0x63

/-- The inverse of the affine map. -/
def sboxAffineInv (y : Byte) : Byte := y.rotateLeft 1 ^^^ y.rotateLeft 3 ^^^ y.rotateLeft 6 ^^^ 0x05

theorem sboxAffine_inv : ∀ y : Byte, sboxAffine (sboxAffineInv y) = y := by decide +kernel

/-- The substitution table carries the inverses: with the affine map undone, its entry for `a` is inverse to `a`. -/
theorem gmul_sboxAffineInv_sbox : ∀ a : Byte, a ≠ 0 → gmul a (sboxAffineInv (entry sbox a)) = 1 := by decide +kernel

theorem ginv_zero : ginv 0 = 0 := by
  have hnone : ((List.range 256).map (BitVec.ofNat 8)).find? (fun b => gmul 0 b == 1) = none :=
    List.find?_eq_none.2 fun b _ => by simp only [gmul_zero_left]; decide
  rw [ginv, hnone]
  rfl

theorem gmul_inverse_unique {a b c : Byte} (hb : gmul a b = 1) (hc : gmul a c = 1) : b = c :=
  calc b = gmul b (gmul a c) := by rw [hc, gmul_one_right]
    _ = gmul (gmul a b) c := by rw [← gmul_assoc, gmul_comm b a]
    _ = c := by rw [hb, gmul_one_left]

/-- ginv's search meets an inverse wherever there is one. -/
theorem gmul_ginv_of_inverse {a c : Byte} (h : gmul a c = 1) : gmul a (ginv a) = 1 := by
  unfold ginv
  cases hf : ((List.range 256).map (BitVec.ofNat 8)).find? (fun b => gmul a b == 1) with
  | some b => simpa using List.find?_some hf
  | none =>
    have hc : c ∈ (List.range 256).map (BitVec.ofNat 8) :=
      List.mem_map.2 ⟨c.toNat, List.mem_range.2 c.isLt, by simp⟩
    exact absurd (beq_iff_eq.2 h) (List.find?_eq_none.1 hf c hc)

theorem gmul_eq_one_iff {a : Byte} (ha : a ≠ 0) (b : Byte) : gmul a b = 1 ↔ b = ginv a := by
  have hinv := gmul_ginv_of_inverse (gmul_sboxAffineInv_sbox a ha)
  exact ⟨fun hb => gmul_inverse_unique hb hinv, fun hb => hb ▸ hinv⟩

/-! The tables (11 R62 to R68). -/

/-- What the table carries is ginv: the inverse is unique, and the entry for 0 is the affine image of 0. -/
theorem sboxAffineInv_sbox (x : Byte) : sboxAffineInv (entry sbox x) = ginv x := by
  by_cases hx : x = 0
  · subst hx
    rw [ginv_zero]
    decide
  · exact (gmul_eq_one_iff hx _).1 (gmul_sboxAffineInv_sbox x hx)

theorem sbox_eq_sboxAffine_ginv (x : Byte) : entry sbox x = sboxAffine (ginv x) := by
  rw [← sboxAffineInv_sbox, sboxAffine_inv]

theorem isbox_sbox : ∀ x : Byte, entry isbox (entry sbox x) = x := by decide +kernel

/-- The column of Te0 for the substituted byte (11 R64). -/
def te0Column (s : Byte) : Word := be32 (gmul s 2) s s (gmul s 3)

/-- The column of Td0 for the substituted byte (11 R67). -/
def td0Column (s : Byte) : Word := be32 (gmul s 14) (gmul s 9) (gmul s 13) (gmul s 11)

theorem te0Table_toList : te0Table.toList = sbox.toList.map te0Column := by decide +kernel

theorem td0Table_toList : td0Table.toList = isbox.toList.map td0Column := by decide +kernel

theorem entry_of_toList_eq_map {α β : Type} {f : α → β} {t : Vector β 256} {u : Vector α 256}
    (h : t.toList = u.toList.map f) (x : Byte) : entry t x = f (entry u x) := by
  have ht : t = u.map f := by rw [← Vector.toList_inj, Vector.toList_map, h]
  rw [ht]
  exact Vector.getElem_map f x.isLt

theorem te0_eq (x : Byte) : te0 x = te0Column (entry sbox x) := entry_of_toList_eq_map te0Table_toList x

theorem td0_eq (x : Byte) : td0 x = td0Column (entry isbox x) := entry_of_toList_eq_map td0Table_toList x

/-- A rotation by one byte moves the last byte of a column to its front. -/
theorem rotr32_8_be32 (a b c d : Byte) : rotr32 (be32 a b c d) 8 = be32 d a b c := by
  unfold rotr32 be32
  ext i hi
  rw [BitVec.getElem_rotateRight]
  grind

theorem rotr32_add (w : Word) {m n : Nat} (h : m + n < 32) : rotr32 w (m + n) = rotr32 (rotr32 w m) n := by
  unfold rotr32
  ext i hi
  simp only [BitVec.getElem_rotateRight]
  grind

theorem rotr32_16_be32 (a b c d : Byte) : rotr32 (be32 a b c d) 16 = be32 c d a b := by
  rw [rotr32_add _ (show 8 + 8 < 32 by decide), rotr32_8_be32, rotr32_8_be32]

theorem rotr32_24_be32 (a b c d : Byte) : rotr32 (be32 a b c d) 24 = be32 b c d a := by
  rw [rotr32_add _ (show 16 + 8 < 32 by decide), rotr32_16_be32, rotr32_8_be32]

theorem rcon_eq_iterate_xtime (k : Nat) (hk : k < 10) : rcon[k] = be32 (xtime^[k] 1) 0 0 0 := by
  revert k
  decide

end Sys2Proof.Machine

namespace Sys2Proof.Proofs

open Sys2Proof Sys2Proof.Machine

/-- Settles O34: the field facts by their lemmas; SBOX because it carries the inverses; Te0 and Td0 as the images of SBOX and
ISBOX under their columns, the other round tables by rotating them. -/
theorem aesTablesAreTheDefinedOnes : Obligations.AesTablesAreTheDefinedOnes := by
  unfold Obligations.AesTablesAreTheDefinedOnes
  refine ⟨xtime_eq_reduce, fun a b => ?_, ⟨ginv_zero, fun a b ha => gmul_eq_one_iff ha b⟩, sbox_eq_sboxAffine_ginv,
    isbox_sbox, fun x => ⟨te0_eq x, ?_, ?_, ?_, rfl⟩, fun x => ⟨td0_eq x, ?_, ?_, ?_, rfl⟩, ?_⟩
  · exact ⟨fun k => (gmulLoop a b k).1, fun k => (gmulLoop a b k).2, rfl, rfl,
      fun k _ => ⟨congrArg Prod.fst (gmulLoop_succ a b k), congrArg Prod.snd (gmulLoop_succ a b k)⟩, gmul_eq_gmulLoop a b⟩
  · rw [te1, te0_eq, te0Column, rotr32_8_be32]
  · rw [te2, te0_eq, te0Column, rotr32_16_be32]
  · rw [te3, te0_eq, te0Column, rotr32_24_be32]
  · rw [td1, td0_eq, td0Column, rotr32_8_be32]
  · rw [td2, td0_eq, td0Column, rotr32_16_be32]
  · rw [td3, td0_eq, td0Column, rotr32_24_be32]
  · exact ⟨fun k => xtime^[k] 1, rfl, fun k => Function.iterate_succ_apply' xtime k 1, rcon_eq_iterate_xtime⟩

end Sys2Proof.Proofs

/-! SUPPORT. The checks of the Blowfish constants (spec/12 R82 and R83): of each listing, and of listings put in order. -/

namespace Sys2Proof.Machine

open Sys2Proof

/-- The spec's check of a listing: the xor of its entries and their sum mod 2^32 (12 R82 and R83). -/
def HasChecks (words : List Word) (x sum : Word) : Prop :=
  words.foldl (· ^^^ ·) 0 = x ∧ words.foldl (· + ·) 0 = sum

/-- The checks of two listings in order are the xor and the sum of their checks, both operations being associative. -/
theorem HasChecks.append {u v : List Word} {x sum y sum' : Word} (hu : HasChecks u x sum) (hv : HasChecks v y sum') :
    HasChecks (u ++ v) (x ^^^ y) (sum + sum') := by
  obtain ⟨rfl, rfl⟩ := hu
  obtain ⟨rfl, rfl⟩ := hv
  constructor <;> simp [List.foldl_append, ← List.foldl_assoc]

theorem bfPInit_hasChecks : HasChecks bfPInit.toList 0xb73ad7ea 0x8e4d14cc := ⟨by decide, by decide⟩

theorem bfSInit0_hasChecks : HasChecks bfSInit0.toList 0x4eb4db7f 0x4b745115 := ⟨by decide +kernel, by decide +kernel⟩

theorem bfSInit1_hasChecks : HasChecks bfSInit1.toList 0xc727e122 0x72ff37b2 := ⟨by decide +kernel, by decide +kernel⟩

theorem bfSInit2_hasChecks : HasChecks bfSInit2.toList 0x462a5d01 0x2ac02b91 := ⟨by decide +kernel, by decide +kernel⟩

theorem bfSInit3_hasChecks : HasChecks bfSInit3.toList 0x1779e2bc 0xf43e3a88 := ⟨by decide +kernel, by decide +kernel⟩

/-- All 1042 words in order: the checks of the five listings combined. -/
theorem bfInit_hasChecks :
    HasChecks (bfPInit.toList ++ bfSInit0.toList ++ bfSInit1.toList ++ bfSInit2.toList ++ bfSInit3.toList)
      0x6ffa520a 0x6bbf03ac :=
  (((bfPInit_hasChecks.append bfSInit0_hasChecks).append bfSInit1_hasChecks).append bfSInit2_hasChecks).append
    bfSInit3_hasChecks

end Sys2Proof.Machine

namespace Sys2Proof.Proofs

open Sys2Proof Sys2Proof.Machine

/-- Settles O59: the listings are folded one by one; the checks of all the words are the combination of theirs. -/
theorem blowfishConstantsMeetTheChecks : Obligations.BlowfishConstantsMeetTheChecks :=
  ⟨bfPInit_hasChecks, bfSInit0_hasChecks, bfSInit1_hasChecks, bfSInit2_hasChecks, bfSInit3_hasChecks, bfInit_hasChecks,
    rfl, rfl, rfl, rfl, rfl, rfl, rfl⟩

end Sys2Proof.Proofs

/-! SUPPORT. The decoder said once: a word names the command whose encoding has its three fields, and it names one exactly where
the three tests of spec/30 R121 pass. -/

namespace Sys2Proof

theorem encode_eq_iff (i : Instr) (w : Word) :
    encode i = w ↔ zeroField w = 0 ∧ modeField w = modeOf i ∧ opcField w = opcOf i := by
  constructor
  · rintro rfl
    exact ⟨zeroField_append _ _ _, modeField_append _ _ _, opcField_append _ _ _⟩
  · rintro ⟨hz, hm, ho⟩
    rw [word_of_fields w, hz, hm, ho]
    rfl

theorem commandOf_fields_of (i : Instr) : commandOf (opcOf i) (modeOf i) = some i := by
  cases i with
  | aesInit mode => exact congrArg (some ∘ Instr.aesInit) mode.ofBits_bits
  | _ => rfl

/-- Only AES.INIT has a MODE (30 R120). -/
theorem modeOf_eq_zero_or_aesInit (i : Instr) : modeOf i = 0 ∨ opcOf i = 0x30 := by
  cases i with
  | aesInit mode => exact .inr rfl
  | _ => exact .inl rfl

/-- Decoding is the lookup of the fields, where the tests of ZERO and MODE pass. -/
theorem decode_eq_ok_iff_commandOf (w : Word) (i : Instr) :
    decode w = .ok i ↔
      zeroField w = 0 ∧ commandOf (opcField w) (modeField w) = some i ∧ (modeField w = 0 ∨ opcField w = 0x30) := by
  unfold decode
  split
  · next hz => exact iff_of_false nofun fun ⟨hz', _⟩ => hz hz'
  · next hz =>
    split
    · next hc => exact iff_of_false nofun fun ⟨_, hc', _⟩ => nomatch hc.symm.trans hc'
    · next j hc =>
      split
      · next hm => exact iff_of_false nofun fun ⟨_, _, hm'⟩ => hm'.elim hm.1 hm.2
      · next hm =>
        have hmode : modeField w = 0 ∨ opcField w = 0x30 := by simpa [or_iff_not_imp_left] using hm
        simp only [not_not.1 hz, hc, hmode, Except.ok.injEq, Option.some.injEq, true_and, and_true]

theorem decode_eq_ok_iff (w : Word) (i : Instr) : decode w = .ok i ↔ encode i = w := by
  rw [decode_eq_ok_iff_commandOf, encode_eq_iff]
  refine and_congr_right fun _ => ⟨fun ⟨hc, hm⟩ => ?_, fun ⟨hm, ho⟩ => ?_⟩
  · obtain ⟨hopc, hinit, hother⟩ := commandOf_fields _ _ _ hc
    refine ⟨?_, hopc.symm⟩
    by_cases h30 : opcField w = 0x30
    · exact (hinit h30).symm
    · rw [hother h30, hm.resolve_right h30]
  · rw [hm, ho]
    exact ⟨commandOf_fields_of i, modeOf_eq_zero_or_aesInit i⟩

/-- The tests of 30 R121 are all the decoder asks of a word. -/
theorem exists_decode_eq_ok_iff (w : Word) :
    (∃ i, decode w = .ok i) ↔
      zeroField w = 0 ∧ opcListed (opcField w) = true ∧ (modeField w = 0 ∨ opcField w = 0x30) := by
  simp only [decode_eq_ok_iff_commandOf, exists_and_left, exists_and_right, ← Option.isSome_iff_exists, commandOf_isSome]

/-- R123's mask for AES.INIT leaves out MODE alone. -/
theorem and_aesInitMask_iff (w : Word) : w &&& 0xfffffcff = 0x30 ↔ zeroField w = 0 ∧ opcField w = 0x30 := by
  constructor
  · intro h
    have hz : zeroField w &&& zeroField 0xfffffcff = zeroField 0x30 := by
      rw [← h]
      exact BitVec.extractLsb'_and.symm
    have ho : opcField w &&& opcField 0xfffffcff = opcField 0x30 := by
      rw [← h]
      exact BitVec.extractLsb'_and.symm
    exact ⟨(BitVec.and_allOnes).symm.trans hz, (BitVec.and_allOnes).symm.trans ho⟩
  · rintro ⟨hz, ho⟩
    have hmasked : ∀ m : BitVec 2, ((0 : BitVec 22) ++ m ++ (0x30 : Byte)) &&& 0xfffffcff = 0x30 := by decide
    rw [word_of_fields w, hz, ho, hmasked]

theorem decode_eq_aesInit_iff (w : Word) (mode : ModeField) :
    decode w = .ok (.aesInit mode) ↔ modeField w = mode.bits ∧ w &&& 0xfffffcff = 0x30 := by
  rw [decode_eq_ok_iff, encode_eq_iff, and_aesInitMask_iff]
  exact and_left_comm

theorem exists_decode_eq_aesInit_iff (w : Word) :
    (∃ mode, decode w = .ok (.aesInit mode)) ↔ w &&& 0xfffffcff = 0x30 := by
  simp only [decode_eq_aesInit_iff, exists_and_right, and_iff_right_iff_imp]
  exact fun _ => ⟨ModeField.ofBits (modeField w), (ModeField.bits_ofBits _).symm⟩

end Sys2Proof

/-! SUPPORT. A word written to CMD while FAULT = 0, and the host's queue after a command. -/

namespace Sys2Proof.Machine

open Sys2Proof

theorem submit_of_decode_ok {s : State} {w : Word} {i : Instr} (hs : s.fault = false) (hd : decode w = .ok i) :
    submit w s = exec i s := by
  simp [submit, hs, hd]

theorem submit_of_not_decode_ok {s : State} {w : Word} (hs : s.fault = false) (hd : ¬∃ i, decode w = .ok i) :
    submit w s = raise .illegalCmd (opcField w) s := by
  obtain ⟨hf, -⟩ | ⟨i, -, hi, -⟩ | ⟨e, -, -, hraise⟩ := submit_cases w s
  · simp [hs] at hf
  · exact absurd ⟨i, hi⟩ hd
  · exact hraise

theorem Completes.host_eq {i : Instr} {s t : State} (h : Completes i s t) : t.host = s.host := by
  cases h <;> rfl

end Sys2Proof.Machine

/-! SUPPORT. Operands that are numbers, and the writes of `.mem` (spec/30 R127). -/

namespace Sys2Proof.Machine

open Sys2Proof

/-- A word's value is an operand that stands for the word. -/
@[simp] theorem operandValue_num_toNat (syms : Symbols) (v : Word) : operandValue syms (.num v.toNat) = some v := by
  simp [operandValue, v.isLt]

theorem memActions_eq_map_zipIdx (addr : Nat) (bytes : List Byte) :
    memActions addr bytes = (bytes.zipIdx addr).map fun bk => HostAction.writeMem bk.2 bk.1 := by
  induction bytes generalizing addr with
  | nil => rfl
  | cons v vs ih => simp [memActions, ih]

end Sys2Proof.Machine

namespace Sys2Proof.Proofs

open Sys2Proof Sys2Proof.Machine

/-- Settles O8: a submitted word raises where it names no command, and the three tests say which words name one. -/
theorem illegalWordsRaise : Obligations.IllegalWordsRaise := by
  unfold Obligations.IllegalWordsRaise
  intro s w rest hs h
  have hstep : step s = submit w { s with host := rest } := step_of_host h
  refine ⟨fun hbad => ?_, fun hz ho hm => ?_⟩
  · have hnone : ¬∃ i, decode w = .ok i := fun hex => by
      obtain ⟨hz, ho, hm⟩ := (exists_decode_eq_ok_iff w).1 hex
      obtain hz' | ho' | ⟨hm', ho'⟩ := hbad
      · exact hz' hz
      · exact Bool.false_ne_true (ho'.symm.trans ho)
      · exact hm.elim hm' ho'
    exact hstep.trans (submit_of_not_decode_ok hs hnone)
  · obtain ⟨i, hi⟩ := (exists_decode_eq_ok_iff w).2 ⟨hz, ho, hm⟩
    exact ⟨i, (decode_eq_ok_iff w i).1 hi, hstep.trans (submit_of_decode_ok hs hi)⟩

/-- Settles O10: a word decodes to a command exactly where it is its encoding; AES.INIT's encodings are the words of its mask. -/
theorem commandsMatchTheirMasks : Obligations.CommandsMatchTheirMasks := by
  unfold Obligations.CommandsMatchTheirMasks
  intro w
  have hmatch (i : Instr) : decode w = .ok i ↔ w = encode i := (decode_eq_ok_iff w i).trans eq_comm
  exact ⟨hmatch .pkcs5PadLen, hmatch .pkcs5Pad, hmatch .pkcs5UnpadLen, hmatch .pkcs5ChkLen, hmatch .rc4Init, hmatch .rc4Enc,
    hmatch .rc4Dec, hmatch .aesEnc, hmatch .aesDec, hmatch .aesIsInit, hmatch .bfInit, hmatch .bfEnc, hmatch .bfDec,
    exists_decode_eq_aesInit_iff w, fun mode h => ((decode_eq_aesInit_iff w mode).1 h).1⟩

/-- Settles O12: a command faults by fault entry, which keeps the host's queue, or it completes, which keeps it too. -/
theorem everyCommandEnds : Obligations.EveryCommandEnds := by
  unfold Obligations.EveryCommandEnds
  intro i s
  obtain ⟨code, hraise⟩ | ⟨t, ht, hc⟩ := exec_ends i s
  · exact ⟨s.enterFault code (opcOf i), hraise, s.enterFault_host code (opcOf i)⟩
  · exact ⟨t, ht, hc.host_eq⟩

/-- Settles O57: the pseudo-instructions are command lines by definition; the directives by the value of a number operand. -/
theorem pseudoLineActions : Obligations.PseudoLineActions := by
  unfold Obligations.PseudoLineActions
  refine ⟨rfl, rfl, fun syms iv key len n v a bytes name x => ⟨rfl, rfl, rfl, ?_, ?_, ?_, ⟨rfl, fun _ => ?_⟩, rfl⟩⟩
  · simp [lineActions]
  · simp [lineActions]
  · simp [lineActions, memActions_eq_map_zipIdx]
  · exact List.lookup_cons_self

end Sys2Proof.Proofs

/-! SUPPORT. The PKCS5 commands check by check: where a check is the first to fail the command ends with that fault, and where
all pass it completes. Then the padded length and the bytes of the pad as spec/40 writes them. -/

namespace Sys2Proof.Machine

open Sys2Proof

/-! PADLEN: 40 R151. -/

theorem exec_pkcs5PadLen_blockSize {s : State} (hb : ¬ (1 ≤ s.a1.toNat ∧ s.a1.toNat ≤ 255)) :
    exec .pkcs5PadLen s = raise .blockSize 0x10 s :=
  if_pos (by simpa using hb)

theorem exec_pkcs5PadLen_overflow {s : State} (hb : 1 ≤ s.a1.toNat ∧ s.a1.toNat ≤ 255)
    (hp : 0xffffffff < padLen s.a0.toNat s.a1.toNat) : exec .pkcs5PadLen s = raise .overflow 0x10 s :=
  (if_neg (by simpa using hb)).trans (if_pos (by simpa using hp))

theorem exec_pkcs5PadLen_done {s : State} (hb : 1 ≤ s.a1.toNat ∧ s.a1.toNat ≤ 255)
    (hp : padLen s.a0.toNat s.a1.toNat ≤ 0xffffffff) :
    exec .pkcs5PadLen s = .next (s.setRes (BitVec.ofNat 32 (padLen s.a0.toNat s.a1.toNat))) :=
  (if_neg (by simpa using hb)).trans (if_neg (by simpa using hp))

/-! PAD: 40 R152. -/

theorem exec_pkcs5Pad_nullPtr {s : State} (h0 : s.a0 = 0) : exec .pkcs5Pad s = raise .nullPtr 0x11 s :=
  if_pos (by simpa using h0)

theorem exec_pkcs5Pad_blockSize {s : State} (h0 : s.a0 ≠ 0) (hb : ¬ (1 ≤ s.a2.toNat ∧ s.a2.toNat ≤ 255)) :
    exec .pkcs5Pad s = raise .blockSize 0x11 s :=
  (if_neg (by simpa using h0)).trans (if_pos (by simpa using hb))

theorem exec_pkcs5Pad_overflow {s : State} (h0 : s.a0 ≠ 0) (hb : 1 ≤ s.a2.toNat ∧ s.a2.toNat ≤ 255)
    (hp : 0xffffffff < padLen s.a1.toNat s.a2.toNat) : exec .pkcs5Pad s = raise .overflow 0x11 s :=
  (if_neg (by simpa using h0)).trans <| (if_neg (by simpa using hb)).trans (if_pos (by simpa using hp))

theorem exec_pkcs5Pad_bounds {s : State} (h0 : s.a0 ≠ 0) (hb : 1 ≤ s.a2.toNat ∧ s.a2.toNat ≤ 255)
    (hp : padLen s.a1.toNat s.a2.toNat ≤ 0xffffffff)
    (hr : s.params.memSize < s.a0.toNat + padLen s.a1.toNat s.a2.toNat) :
    exec .pkcs5Pad s = raise .bounds 0x11 s :=
  (if_neg (by simpa using h0)).trans <| (if_neg (by simpa using hb)).trans <|
    (if_neg (by simpa using hp)).trans (if_pos (by simpa using hr))

theorem exec_pkcs5Pad_done {s : State} (h0 : s.a0 ≠ 0) (hb : 1 ≤ s.a2.toNat ∧ s.a2.toNat ≤ 255)
    (hp : padLen s.a1.toNat s.a2.toNat ≤ 0xffffffff)
    (hr : s.a0.toNat + padLen s.a1.toNat s.a2.toNat ≤ s.params.memSize) :
    exec .pkcs5Pad s =
      .next (s.setMem (padBytes s.mem s.a0.toNat s.a1.toNat (padLen s.a1.toNat s.a2.toNat))) :=
  (if_neg (by simpa using h0)).trans <| (if_neg (by simpa using hb)).trans <|
    (if_neg (by simpa using hp)).trans (if_neg (by simpa using hr))

/-! UNPADLEN: 40 R153. -/

theorem exec_pkcs5UnpadLen_nullPtr {s : State} (h0 : s.a0 = 0) : exec .pkcs5UnpadLen s = raise .nullPtr 0x12 s :=
  if_pos (by simpa using h0)

theorem exec_pkcs5UnpadLen_length {s : State} (h0 : s.a0 ≠ 0) (h1 : s.a1 = 0) :
    exec .pkcs5UnpadLen s = raise .length 0x12 s :=
  (if_neg (by simpa using h0)).trans (if_pos (by simpa using h1))

theorem exec_pkcs5UnpadLen_bounds {s : State} (h0 : s.a0 ≠ 0) (h1 : s.a1 ≠ 0)
    (hr : s.params.memSize < s.a0.toNat + s.a1.toNat) : exec .pkcs5UnpadLen s = raise .bounds 0x12 s :=
  (if_neg (by simpa using h0)).trans <| (if_neg (by simpa using h1)).trans (if_pos (by simpa using hr))

theorem exec_pkcs5UnpadLen_padValue {s : State} (h0 : s.a0 ≠ 0) (h1 : s.a1 ≠ 0)
    (hr : s.a0.toNat + s.a1.toNat ≤ s.params.memSize)
    (hv : s.a1.toNat < (lastByte s.mem s.a0.toNat s.a1.toNat).toNat) :
    exec .pkcs5UnpadLen s = raise .padValue 0x12 s :=
  (if_neg (by simpa using h0)).trans <| (if_neg (by simpa using h1)).trans <|
    (if_neg (by simpa using hr)).trans (if_pos hv)

theorem exec_pkcs5UnpadLen_done {s : State} (h0 : s.a0 ≠ 0) (h1 : s.a1 ≠ 0)
    (hr : s.a0.toNat + s.a1.toNat ≤ s.params.memSize)
    (hv : (lastByte s.mem s.a0.toNat s.a1.toNat).toNat ≤ s.a1.toNat) :
    exec .pkcs5UnpadLen s = .next (s.setRes (s.a1 - (lastByte s.mem s.a0.toNat s.a1.toNat).zeroExtend 32)) :=
  (if_neg (by simpa using h0)).trans <| (if_neg (by simpa using h1)).trans <|
    (if_neg (by simpa using hr)).trans (if_neg hv.not_gt)

/-! CHKLEN: 40 R154. -/

theorem exec_pkcs5ChkLen_blockSize {s : State} (hb : ¬ (1 ≤ s.a1.toNat ∧ s.a1.toNat ≤ 255)) :
    exec .pkcs5ChkLen s = raise .blockSize 0x13 s :=
  if_pos (by simpa using hb)

theorem exec_pkcs5ChkLen_done {s : State} (hb : 1 ≤ s.a1.toNat ∧ s.a1.toNat ≤ 255) :
    exec .pkcs5ChkLen s = .next (s.setRes (if s.a0.toNat % s.a1.toNat = 0 then 1 else 0)) :=
  if_neg (by simpa using hb)

/-! What the commands compute. -/

/-- The padded length is one block more than the whole blocks of the length (40 R151). -/
theorem padLen_eq_mul (length : Nat) {b : Nat} (hb : 1 ≤ b) : padLen length b = (length / b + 1) * b := by
  have hdiv := Nat.div_add_mod' length b
  have hmod := Nat.mod_lt length hb
  rw [padLen, Nat.add_one_mul]
  omega

theorem padLen_mod_self (length : Nat) {b : Nat} (hb : 1 ≤ b) : padLen length b % b = 0 := by
  rw [padLen_eq_mul length hb, Nat.mul_mod_left]

theorem padLen_mul (n : Nat) {b : Nat} (hb : 1 ≤ b) : padLen (n * b) b = (n + 1) * b := by
  rw [padLen_eq_mul _ hb, Nat.mul_div_cancel n hb]

/-- The pad ends with the padded buffer (40 R152). -/
theorem padBytes_read_of_le {length p : Nat} (h : length ≤ p) (m : Memory) (data c : Nat) :
    (padBytes m data length p).read c =
      if data + length ≤ c ∧ c < data + p then BitVec.ofNat 8 (p - length) else m.read c := by
  rw [padBytes_read, Nat.add_assoc, Nat.add_sub_cancel' h]

/-- The subtraction of words is the one of numbers where it does not wrap (40 R153). -/
theorem sub_zeroExtend_eq_ofNat {w : Word} {b : Byte} (h : b.toNat ≤ w.toNat) :
    w - b.zeroExtend 32 = BitVec.ofNat 32 (w.toNat - b.toNat) := by
  rw [← toNat_sub_zeroExtend h, BitVec.ofNat_toNat, BitVec.setWidth_eq]

end Sys2Proof.Machine

namespace Sys2Proof.Proofs

open Sys2Proof Sys2Proof.Machine

/-- Settles O23: each clause is a check of the command; the properties hold because the padded length is whole blocks. -/
theorem padLenRule : Obligations.PadLenRule := by
  unfold Obligations.PadLenRule
  refine ⟨rfl, fun s => ⟨exec_pkcs5PadLen_blockSize, fun h1 h255 hp => exec_pkcs5PadLen_overflow ⟨h1, h255⟩ hp,
    fun h1 h255 hp => ⟨exec_pkcs5PadLen_done ⟨h1, h255⟩ hp, toNat_ofNat_padLen hp⟩, fun h1 => ?_⟩⟩
  obtain ⟨hlt, hle⟩ := padLen_bounds s.a0.toNat h1
  exact ⟨padLen_mod_self _ h1, hlt, hle, fun n => padLen_mul n h1⟩

/-- Settles O24: each fault is a check of the command; the memory is read through `padBytes`. -/
theorem padRule : Obligations.PadRule := by
  unfold Obligations.PadRule
  refine ⟨rfl, fun s => ⟨exec_pkcs5Pad_nullPtr, exec_pkcs5Pad_blockSize,
    fun h0 h1 h255 hp => exec_pkcs5Pad_overflow h0 ⟨h1, h255⟩ hp,
    fun h0 h1 h255 hp hr => exec_pkcs5Pad_bounds h0 ⟨h1, h255⟩ hp hr, fun h0 h1 h255 hp hr => ?_⟩⟩
  obtain ⟨hlt, hle⟩ := padLen_bounds s.a1.toNat h1
  exact ⟨Nat.sub_pos_of_lt hlt, Nat.sub_le_iff_le_add'.2 hle, _, exec_pkcs5Pad_done h0 ⟨h1, h255⟩ hp hr,
    padBytes_read_of_le hlt.le s.mem s.a0.toNat⟩

/-- Settles O25: each fault is a check of the command; the last check is the one that keeps the subtraction from wrapping. -/
theorem unpadLenRule : Obligations.UnpadLenRule := by
  unfold Obligations.UnpadLenRule
  refine ⟨rfl, fun s => ⟨exec_pkcs5UnpadLen_nullPtr, exec_pkcs5UnpadLen_length, exec_pkcs5UnpadLen_bounds,
    exec_pkcs5UnpadLen_padValue, fun h0 h1 hr hv => ?_⟩⟩
  have hres := sub_zeroExtend_eq_ofNat hv
  exact hres ▸ exec_pkcs5UnpadLen_done h0 h1 hr hv

/-- Settles O26: the check of the block size fails, or it passes and the command completes. -/
theorem chkLenRule : Obligations.ChkLenRule := by
  unfold Obligations.ChkLenRule
  exact ⟨rfl, fun s => ⟨exec_pkcs5ChkLen_blockSize, fun h1 h255 => exec_pkcs5ChkLen_done ⟨h1, h255⟩⟩⟩

end Sys2Proof.Proofs

/-! SUPPORT. The RC4 commands check by check: where a check is the first to fail the command ends with that fault, and where
all pass it completes. Then the two loops of spec/41 as runs of states: the key schedule and the keystream. -/

namespace Sys2Proof.Machine

open Sys2Proof

/-! INIT: 41 R171. -/

theorem exec_rc4Init_nullPtr {s : State} (h0 : s.a0 = 0) : exec .rc4Init s = raise .nullPtr 0x20 s :=
  if_pos (by simpa using h0)

theorem exec_rc4Init_keyLen {s : State} (h0 : s.a0 ≠ 0) (h1 : s.a1 = 0) : exec .rc4Init s = raise .keyLen 0x20 s :=
  (if_neg (by simpa using h0)).trans (if_pos (by simpa using h1))

theorem exec_rc4Init_bounds {s : State} (h0 : s.a0 ≠ 0) (h1 : s.a1 ≠ 0)
    (hr : s.params.memSize < s.a0.toNat + s.a1.toNat) : exec .rc4Init s = raise .bounds 0x20 s :=
  (if_neg (by simpa using h0)).trans <| (if_neg (by simpa using h1)).trans (if_pos (by simpa using hr))

theorem exec_rc4Init_done {s : State} (h0 : s.a0 ≠ 0) (h1 : s.a1 ≠ 0)
    (hr : s.a0.toNat + s.a1.toNat ≤ s.params.memSize) :
    exec .rc4Init s = .next (s.setRc4 ⟨ksa (fun k => s.mem.read (s.a0.toNat + k)) s.a1.toNat, 0, 0⟩) :=
  (if_neg (by simpa using h0)).trans <| (if_neg (by simpa using h1)).trans (if_neg (by simpa using hr))

/-! ENC and DEC: 41 R173 and R175. -/

/-- RC4.ENC and RC4.DEC are one operation under two OPC bytes (41 R175). -/
theorem exec_eq_rc4Command {i : Instr} {opc : Byte} (h : (i = .rc4Enc ∧ opc = 0x21) ∨ (i = .rc4Dec ∧ opc = 0x22))
    (s : State) : exec i s = rc4Command opc s := by
  obtain ⟨rfl, rfl⟩ | ⟨rfl, rfl⟩ := h
  · rfl
  · rfl

theorem State.rc4Init_eq_true_iff (s : State) : s.rc4Init = true ↔ ∃ c, s.rc4 = some c := Option.isSome_iff_exists

theorem rc4Command_uninit {s : State} (opc : Byte) (h : s.rc4Init = false) :
    rc4Command opc s = raise .uninit opc s := by
  have hnone : s.rc4 = none := by simpa [State.rc4Init] using h
  unfold rc4Command
  rw [hnone]

theorem rc4Command_nullPtr {s : State} (opc : Byte) (h : s.rc4Init = true) (h0 : s.a0 = 0) :
    rc4Command opc s = raise .nullPtr opc s := by
  obtain ⟨c, hc⟩ := s.rc4Init_eq_true_iff.1 h
  unfold rc4Command
  rw [hc]
  exact if_pos (by simpa using h0)

theorem rc4Command_bounds {s : State} (opc : Byte) (h : s.rc4Init = true) (h0 : s.a0 ≠ 0)
    (hr : s.params.memSize < s.a0.toNat + s.a1.toNat) : rc4Command opc s = raise .bounds opc s := by
  obtain ⟨c, hc⟩ := s.rc4Init_eq_true_iff.1 h
  unfold rc4Command
  rw [hc]
  exact (if_neg (by simpa using h0)).trans (if_pos (by simpa using hr))

/-! The loop's start: 41 R173 and R176. -/

theorem rc4Start_s (p : Params) (c : Rc4Context) : (rc4Start p c).s = c.s := by
  unfold rc4Start
  split
  · rfl
  · rfl

theorem rc4Start_i (p : Params) (c : Rc4Context) : (rc4Start p c).i = if p.rc4IjPersist then c.i else 0 :=
  apply_ite Rc4Context.i _ _ _

theorem rc4Start_j (p : Params) (c : Rc4Context) : (rc4Start p c).j = if p.rc4IjPersist then c.j else 0 :=
  apply_ite Rc4Context.j _ _ _

/-! The two loops as runs of states. -/

/-- The cells and j after the first n steps of the key schedule (41 R172). -/
def ksaRun (key : Nat → Byte) (length n : Nat) : Vector Byte 256 × Byte :=
  Nat.fold n (fun i _ sj => ksaStep key length i sj) (identityCells, 0)

theorem ksa_eq_ksaRun (key : Nat → Byte) (length : Nat) : ksa key length = (ksaRun key length 256).1 := rfl

theorem ksaRun_succ_j (key : Nat → Byte) (length n : Nat) :
    (ksaRun key length (n + 1)).2 =
      (ksaRun key length n).2 + entry (ksaRun key length n).1 (BitVec.ofNat 8 n) + key (n % length) := rfl

theorem ksaRun_succ_s (key : Nat → Byte) (length n : Nat) :
    (ksaRun key length (n + 1)).1 =
      swapCells (ksaRun key length n).1 (BitVec.ofNat 8 n) (ksaRun key length (n + 1)).2 := rfl

theorem entry_ksaRun_succ (key : Nat → Byte) (length n : Nat) (x : Byte) :
    entry (ksaRun key length (n + 1)).1 x =
      if x = BitVec.ofNat 8 n then entry (ksaRun key length n).1 (ksaRun key length (n + 1)).2
      else if x = (ksaRun key length (n + 1)).2 then entry (ksaRun key length n).1 (BitVec.ofNat 8 n)
      else entry (ksaRun key length n).1 x := by
  rw [ksaRun_succ_s, entry_swapCells]

/-- The context after n steps of the keystream (41 R174). -/
def prgaRun (c : Rc4Context) : Nat → Rc4Context
  | 0 => c
  | n + 1 => (prgaStep (prgaRun c n)).1

/-- The loop of RC4.ENC runs through the contexts of the keystream. -/
theorem rc4Crypt_context_eq_prgaRun (c : Rc4Context) (m : Memory) (d n : Nat) : (rc4Crypt c m d n).1 = prgaRun c n := by
  induction n with
  | zero => rfl
  | succ n ih => rw [rc4Crypt_context_succ, ih, prgaRun]

theorem rc4Crypt_byte_eq_xor_prgaStep (c : Rc4Context) (m : Memory) (d : Nat) {k n : Nat} (hk : k < n) :
    (rc4Crypt c m d n).2.read (d + k) = m.read (d + k) ^^^ (prgaStep (prgaRun c k)).2 := by
  rw [rc4Crypt_byte c m d hk, rc4Crypt_context_eq_prgaRun]

theorem rc4Command_done {s : State} {c : Rc4Context} (opc : Byte) (hc : s.rc4 = some c) (h0 : s.a0 ≠ 0)
    (hr : s.a0.toNat + s.a1.toNat ≤ s.params.memSize) :
    rc4Command opc s = .next { s with
      mem := (rc4Crypt (rc4Start s.params c) s.mem s.a0.toNat s.a1.toNat).2,
      rc4 := some (prgaRun (rc4Start s.params c) s.a1.toNat), res := s.a1 } := by
  rw [← rc4Crypt_context_eq_prgaRun (rc4Start s.params c) s.mem s.a0.toNat]
  unfold rc4Command
  rw [hc]
  exact (if_neg (by simpa using h0)).trans (if_neg (by simpa using hr))

end Sys2Proof.Machine

namespace Sys2Proof.Proofs

open Sys2Proof Sys2Proof.Machine

/-- Settles O29: the run is that of `ksaRun`; each step sets j and swaps two cells. -/
theorem ksaRunsTheLoop : Obligations.KsaRunsTheLoop := by
  unfold Obligations.KsaRunsTheLoop
  intro key len
  exact ⟨fun n => (ksaRun key len n).1, fun n => (ksaRun key len n).2, entry_identityCells, rfl,
    fun i _ => ⟨ksaRun_succ_j key len i, entry_ksaRun_succ key len i⟩, ksa_eq_ksaRun key len⟩

/-- Settles O31: each fault is a check of the command; the run is that of `prgaRun` from the loop's start. -/
theorem rc4EncDecRule : Obligations.Rc4EncDecRule := by
  unfold Obligations.Rc4EncDecRule
  refine ⟨rfl, rfl, fun s i opc hi => ?_⟩
  rw [FaultsWith, FaultsWith, FaultsWith, exec_eq_rc4Command hi s]
  refine ⟨rc4Command_uninit opc, rc4Command_nullPtr opc, rc4Command_bounds opc, fun c hc h0 hr => ?_⟩
  refine ⟨fun k => (prgaRun (rc4Start s.params c) k).s, fun k => (prgaRun (rc4Start s.params c) k).i,
    fun k => (prgaRun (rc4Start s.params c) k).j, fun k => (prgaStep (prgaRun (rc4Start s.params c) k)).2, _,
    rc4Start_s s.params c, rc4Start_i s.params c, rc4Start_j s.params c, fun k _ => ?_,
    fun k hk => rc4Crypt_byte_eq_xor_prgaStep _ _ _ hk, fun x hx => rc4Crypt_read_outside _ _ _ _ hx,
    rc4Command_done opc hc h0 hr⟩
  exact ⟨prgaStep_i _, prgaStep_j _, entry_swapCells _ _ _, prgaStep_z _⟩

/-- Settles O28: each fault is a check of the command, and where all pass it writes the context alone. -/
theorem rc4InitRule : Obligations.Rc4InitRule := by
  unfold Obligations.Rc4InitRule
  exact ⟨rfl, fun s => ⟨exec_rc4Init_nullPtr, exec_rc4Init_keyLen, exec_rc4Init_bounds, exec_rc4Init_done⟩⟩

end Sys2Proof.Proofs

/-! SUPPORT. The AES key schedule (spec/42): AES.INIT and AES.ISINIT check by check, the words of the two schedules one by one,
and the table lookups of SubWord and InvMixWord as bytes. -/

namespace Sys2Proof.Machine

open Sys2Proof

/-! Words as four bytes. -/

theorem be32_xor (a b c d a' b' c' d' : Byte) :
    be32 a b c d ^^^ be32 a' b' c' d' = be32 (a ^^^ a') (b ^^^ b') (c ^^^ c') (d ^^^ d') := by
  change (a ++ b ++ c ++ d : BitVec (8 + 8 + 8 + 8)) ^^^ (a' ++ b' ++ c' ++ d') = _
  simp only [be32, BitVec.xor_append]

theorem be32_and (a b c d a' b' c' d' : Byte) :
    be32 a b c d &&& be32 a' b' c' d' = be32 (a &&& a') (b &&& b') (c &&& c') (d &&& d') := by
  change (a ++ b ++ c ++ d : BitVec (8 + 8 + 8 + 8)) &&& (a' ++ b' ++ c' ++ d') = _
  simp only [be32, BitVec.and_append]

/-- The four byte masks pick one byte of each word: how SubWord and the final rounds put a word together (42 R193, 43 R211). -/
theorem xor_masked_be32 (a b c d : Byte) :
    (be32 a a a a &&& 0xff000000) ^^^ (be32 b b b b &&& 0x00ff0000) ^^^ (be32 c c c c &&& 0x0000ff00)
      ^^^ (be32 d d d d &&& 0x000000ff) = be32 a b c d := by
  have hone : ∀ x : Byte, x &&& 255#8 = x := fun _ => BitVec.and_allOnes
  have h0 : (0xff000000 : Word) = be32 0xff 0 0 0 := rfl
  have h1 : (0x00ff0000 : Word) = be32 0 0xff 0 0 := rfl
  have h2 : (0x0000ff00 : Word) = be32 0 0 0xff 0 := rfl
  have h3 : (0x000000ff : Word) = be32 0 0 0 0xff := rfl
  rw [h0, h1, h2, h3]
  simp [be32_and, be32_xor, hone]

theorem rotWord_eq (t : Word) : rotWord t = be32 (byte1 t) (byte2 t) (byte3 t) (byte0 t) := by
  unfold rotWord rotl32 be32 byte0 byte1 byte2 byte3
  ext i hi
  rw [BitVec.getElem_rotateLeft]
  grind

theorem subWord_eq (t : Word) :
    subWord t = be32 (entry sbox (byte0 t)) (entry sbox (byte1 t)) (entry sbox (byte2 t)) (entry sbox (byte3 t)) :=
  xor_masked_be32 _ _ _ _

/-! The inverse column mix: 42 R195. -/

theorem td1_eq (x : Byte) :
    td1 x = be32 (gmul (entry isbox x) 11) (gmul (entry isbox x) 14) (gmul (entry isbox x) 9) (gmul (entry isbox x) 13) := by
  rw [td1, td0_eq, td0Column, rotr32_8_be32]

theorem td2_eq (x : Byte) :
    td2 x = be32 (gmul (entry isbox x) 13) (gmul (entry isbox x) 11) (gmul (entry isbox x) 14) (gmul (entry isbox x) 9) := by
  rw [td2, td0_eq, td0Column, rotr32_16_be32]

theorem td3_eq (x : Byte) :
    td3 x = be32 (gmul (entry isbox x) 9) (gmul (entry isbox x) 13) (gmul (entry isbox x) 11) (gmul (entry isbox x) 14) := by
  rw [td3, td0_eq, td0Column, rotr32_24_be32]

theorem td0_sbox (b : Byte) : td0 (entry sbox b) = td0Column b := by rw [td0_eq, isbox_sbox]

theorem byte3_te4 (x : Byte) : byte3 (te4 x) = entry sbox x := byte3_be32 _ _ _ _

/-- The S-box of the inner lookups cancels the inverse S-box built into the outer tables. -/
theorem invMixWord_eq_mixColumn (x : Word) : invMixWord x = mixColumn 14 11 13 9 x := by
  simp only [invMixWord, mixColumn, byte3_te4, td0_sbox, td0Column, td1_eq, td2_eq, td3_eq, isbox_sbox, be32_xor]

theorem mixColumn_be32 (k0 k1 k2 k3 a b c d : Byte) :
    mixColumn k0 k1 k2 k3 (be32 a b c d) =
      be32 (gmul a k0 ^^^ gmul b k1 ^^^ gmul c k2 ^^^ gmul d k3) (gmul a k3 ^^^ gmul b k0 ^^^ gmul c k1 ^^^ gmul d k2)
        (gmul a k2 ^^^ gmul b k3 ^^^ gmul c k0 ^^^ gmul d k1) (gmul a k1 ^^^ gmul b k2 ^^^ gmul c k3 ^^^ gmul d k0) := by
  simp only [mixColumn, byte0_be32, byte1_be32, byte2_be32, byte3_be32]

/-! The inverse schedule: 42 R194. -/

theorem getElem_invKeySchedule {n : Nat} (ek : Vector Word (4 * (n + 1))) {r c : Nat} (hr : r ≤ n) (hc : c < 4) :
    (invKeySchedule ek)[4 * r + c]'(by omega) =
      if 0 < r ∧ r < n then invMixWord (ek[4 * (n - r) + c]'(by omega)) else ek[4 * (n - r) + c]'(by omega) := by
  have hdiv : (4 * r + c) / 4 = r := by omega
  have hmod : (4 * r + c) % 4 = c := by omega
  simp only [invKeySchedule, Vector.getElem_ofFn, invScheduleWord, hdiv, hmod]

/-! The forward schedule: 42 R192. -/

/-- A later word of the expansion leaves the earlier ones as they are. -/
theorem getElem_expandWords_of_le (nr : AesRounds) (key : Vector Word nr.nk) {k n i : Nat} (hkn : k ≤ n)
    (hn : n ≤ 4 * (nr.val + 1) - nr.nk) (hi : i < nr.nk + k) :
    (expandWords nr key n hn)[i] = (expandWords nr key k (hkn.trans hn))[i] := by
  induction n, hkn using Nat.le_induction with
  | base => rfl
  | succ n hkn ih => exact (Vector.getElem_push_lt (by omega)).trans (ih _)

theorem getElem_expandWords_last (nr : AesRounds) (key : Vector Word nr.nk) {k : Nat} (hk : k < 4 * (nr.val + 1) - nr.nk) :
    (expandWords nr key (k + 1) hk)[nr.nk + k] =
      (expandWords nr key k hk.le)[k]'(Nat.lt_add_of_pos_left nr.nk_pos) ^^^
        expandTerm nr.nk (nr.nk + k)
          ((expandWords nr key k hk.le)[nr.nk + k - 1]'(Nat.sub_one_lt_of_lt (Nat.add_pos_left nr.nk_pos k)))
          (rcon[(nr.nk + k) / nr.nk - 1]'(nr.rcon_bound hk)) :=
  Vector.getElem_push_eq

/-- The words of the schedule are those of every long enough expansion. -/
theorem getElem_keyExpand (nr : AesRounds) (key : Vector Word nr.nk) {k i : Nat} (hk : k ≤ 4 * (nr.val + 1) - nr.nk)
    (hi : i < nr.nk + k) (hlen : i < 4 * (nr.val + 1)) : (keyExpand nr key)[i] = (expandWords nr key k hk)[i] :=
  (Vector.getElem_cast _).trans (getElem_expandWords_of_le nr key hk le_rfl hi)

theorem getElem_keyExpand_key (nr : AesRounds) (key : Vector Word nr.nk) {i : Nat} (hi : i < 4 * (nr.val + 1))
    (hk : i < nr.nk) : (keyExpand nr key)[i] = key[i] :=
  getElem_keyExpand nr key (Nat.zero_le _) hk hi

theorem getElem_keyExpand_next (nr : AesRounds) (key : Vector Word nr.nk) {k : Nat} (hk : nr.nk + k < 4 * (nr.val + 1)) :
    (keyExpand nr key)[nr.nk + k] =
      (keyExpand nr key)[k] ^^^ expandTerm nr.nk (nr.nk + k) (keyExpand nr key)[nr.nk + k - 1]
        (rcon[(nr.nk + k) / nr.nk - 1]'(nr.rcon_bound (by omega))) := by
  have hpos := nr.nk_pos
  have hlt : k < 4 * (nr.val + 1) - nr.nk := by omega
  rw [getElem_keyExpand nr key (k := k + 1) hlt (by omega), getElem_keyExpand nr key hlt.le (by omega) (i := k),
    getElem_keyExpand nr key hlt.le (by omega) (i := nr.nk + k - 1), getElem_expandWords_last nr key hlt]

/-! AES.INIT: 42 R190 and R191. -/

theorem cipherModeOf_eq_none (mode : ModeField) : cipherModeOf mode = none ↔ mode ≠ .ecb ∧ mode ≠ .cbc := by
  cases mode <;> simp [cipherModeOf]

theorem bits_of_cipherModeOf {mode : ModeField} {m : AesMode} (h : cipherModeOf mode = some m) : m.bits = mode.bits :=
  match mode, h with
  | .ecb, rfl => rfl
  | .cbc, rfl => rfl

theorem aesInitRefused_eq_true (mode : ModeField) (s : State) :
    aesInitRefused mode s = true ↔
      (mode ≠ .ecb ∧ mode ≠ .cbc) ∨ s.a1 = 0 ∨ (s.a2 ≠ 16 ∧ s.a2 ≠ 24 ∧ s.a2 ≠ 32) := by
  simp [aesInitRefused, cipherModeOf_eq_none, AesRounds.ofKeyLength_eq_none, or_assoc, ← BitVec.toNat_inj]

/-- Where AES.INIT does not fail recoverably it has a mode, a round count and a key address. -/
theorem aesInit_operands_of_not_refused {mode : ModeField} {s : State} (h : aesInitRefused mode s = false) :
    ∃ m nr, cipherModeOf mode = some m ∧ AesRounds.ofKeyLength s.a2.toNat = some nr ∧ s.a1 ≠ 0 := by
  simp only [aesInitRefused, Bool.or_eq_false_iff, Option.isNone_eq_false_iff, Option.isSome_iff_exists,
    isNull_eq_false] at h
  obtain ⟨⟨⟨m, hm⟩, h1⟩, nr, hn⟩ := h
  exact ⟨m, nr, hm, hn, h1⟩

theorem exec_aesInit_fails {mode : ModeField} {s : State} (h : aesInitRefused mode s = true) :
    exec (.aesInit mode) s = .next (aesInitFails s) := by
  change execAesInit mode s = _
  unfold execAesInit
  split
  · next m nr hm hn => exact if_pos (by simpa [aesInitRefused, hm, hn] using h)
  · rfl

section

variable {mode : ModeField} {s : State} {m : AesMode} {nr : AesRounds}

theorem exec_aesInit_bounds (hm : cipherModeOf mode = some m) (hn : AesRounds.ofKeyLength s.a2.toNat = some nr)
    (h1 : s.a1 ≠ 0)
    (h : s.params.memSize < s.a1.toNat + s.a2.toNat ∨ (s.a0 ≠ 0 ∧ s.params.memSize < s.a0.toNat + 16)) :
    exec (.aesInit mode) s = raise .bounds 0x30 s := by
  change execAesInit mode s = _
  unfold execAesInit
  rw [hm, hn]
  refine (if_neg (by simpa using h1)).trans ?_
  by_cases hk : s.params.memSize < s.a1.toNat + s.a2.toNat
  · exact if_pos (by simpa using hk)
  · exact (if_neg (by simpa using hk)).trans (if_pos (by simpa using h.resolve_left hk))

theorem exec_aesInit_done (hm : cipherModeOf mode = some m) (hn : AesRounds.ofKeyLength s.a2.toNat = some nr)
    (h1 : s.a1 ≠ 0)
    (h : ¬ (s.params.memSize < s.a1.toNat + s.a2.toNat ∨ (s.a0 ≠ 0 ∧ s.params.memSize < s.a0.toNat + 16))) :
    exec (.aesInit mode) s = .next ((s.setAes (some (aesContext s.mem s.a0 s.a1 nr m))).setRes 1) := by
  obtain ⟨hk, hiv⟩ := not_or.1 h
  change execAesInit mode s = _
  unfold execAesInit
  rw [hm, hn]
  exact (if_neg (by simpa using h1)).trans <| (if_neg (by simpa using hk)).trans (if_neg (by simpa using hiv))

end

theorem getElem_keyWords (m : Memory) (key : Nat) {nk i : Nat} (hi : i < nk) :
    (keyWords m key nk)[i] = m.readWord (key + 4 * i) := Vector.getElem_ofFn hi

theorem aesContext_iv (m : Memory) (iv key : Word) (nr : AesRounds) (mode : AesMode) :
    (aesContext m iv key nr mode).iv = if iv = 0 then none else some (loadIv m iv.toNat) := by
  simp only [aesContext, isNull_eq_true]

/-! AES.ISINIT: 42 R197. -/

theorem State.status_aesInit_eq_one_iff (s : State) : s.status.extractLsb' 2 1 = 1 ↔ s.aesInit = true := by
  obtain ⟨-, -, hbit, -⟩ := s.status_flags
  rw [hbit]
  cases s.aesInit <;> decide

theorem State.aesInit_eq_true_iff (s : State) : s.aesInit = true ↔ s.aesMode ≠ 0 := bne_iff_ne

end Sys2Proof.Machine

namespace Sys2Proof.Proofs

open Sys2Proof Sys2Proof.Machine

/-- Settles O35: the recoverable failure is the model's `aesInitRefused`; where it does not hold, the range checks decide. -/
theorem aesInitRule : Obligations.AesInitRule := by
  unfold Obligations.AesInitRule
  refine ⟨rfl, rfl, rfl, rfl, fun mode s => ?_⟩
  simp only [← aesInitRefused_eq_true, Bool.not_eq_true]
  refine ⟨exec_aesInit_fails, fun hr hout => ?_, fun hr hin => ?_⟩
  · obtain ⟨m, nr, hm, hn, h1⟩ := aesInit_operands_of_not_refused hr
    exact exec_aesInit_bounds hm hn h1 hout
  · obtain ⟨m, nr, hm, hn, h1⟩ := aesInit_operands_of_not_refused hr
    have hlen := AesRounds.ofKeyLength_eq_some hn
    exact ⟨aesContext s.mem s.a0 s.a1 nr m, keyWords s.mem s.a1.toNat nr.nk, exec_aesInit_done hm hn h1 hin,
      (Nat.div_eq_of_eq_mul_right (by decide) hlen).symm, nr.val_eq, bits_of_cipherModeOf hm,
      fun i hi => getElem_keyWords s.mem s.a1.toNat hi, rfl, rfl, aesContext_iv s.mem s.a0 s.a1 nr m⟩

/-- Settles O36: RotWord and SubWord byte by byte; the schedule word by word, in the order the expansion appends them. -/
theorem keyExpandRule : Obligations.KeyExpandRule := by
  unfold Obligations.KeyExpandRule
  refine ⟨rotWord_eq, subWord_eq, fun nr key => ⟨fun i hi hk => getElem_keyExpand_key nr key hi hk, fun i hi hle _ => ?_⟩⟩
  obtain ⟨k, rfl⟩ := Nat.exists_eq_add_of_le hle
  have hrcon := nr.rcon_bound (show k < 4 * (nr.val + 1) - nr.nk by omega)
  simp only [Nat.add_sub_cancel_left, getElem_keyExpand_next nr key hi, expandTerm, rotWord, subWord,
    List.getD_eq_getElem rcon.toList 0 (by simpa using hrcon), Vector.getElem_toList]

/-- Settles O37: the index of a word gives back its round key and its place in it. -/
theorem inverseScheduleRule : Obligations.InverseScheduleRule := by
  unfold Obligations.InverseScheduleRule
  exact fun nr ek r c hr hc => getElem_invKeySchedule ek hr hc

/-- Settles O38: the lookups are the definition; each one gives a column of products, and the columns add up to the mix. -/
theorem invMixWordIsTheColumnMix : Obligations.InvMixWordIsTheColumnMix := by
  unfold Obligations.InvMixWordIsTheColumnMix
  exact ⟨fun x => rfl, td0_sbox, fun a b c d => (invMixWord_eq_mixColumn _).trans (mixColumn_be32 14 11 13 9 a b c d)⟩

/-- Settles O47: the command writes the flag, which is the bit of STATUS. -/
theorem aesIsInitRule : Obligations.AesIsInitRule := by
  unfold Obligations.AesIsInitRule
  refine ⟨rfl, fun s => ?_⟩
  simp only [s.status_aesInit_eq_one_iff]
  exact ⟨rfl, s.aesInit_eq_true_iff⟩

end Sys2Proof.Proofs

/-! SUPPORT. The AES round engine (spec/43): a block function as a run of rounds under the round keys of a schedule, the rounds
in the form of FIPS-197, and each inverse round undoing a forward round. -/

namespace Sys2Proof.Machine

open Sys2Proof

/-! The block functions as runs of rounds: 43 R211 and R212. -/

/-- Round key r as the words `4*r` to `4*r+3` of the schedule's list, 0 above its end. -/
def scheduleKey {n : Nat} (k : Vector Word (4 * (n + 1))) (r : Nat) : Block where
  w0 := k.toList.getD (4 * r) 0
  w1 := k.toList.getD (4 * r + 1) 0
  w2 := k.toList.getD (4 * r + 2) 0
  w3 := k.toList.getD (4 * r + 3) 0

theorem roundKey_eq_scheduleKey {n : Nat} (k : Vector Word (4 * (n + 1))) {r : Nat} (hr : r ≤ n) :
    roundKey k r hr = scheduleKey k r := by
  have hword : ∀ i (hi : i < 4 * (n + 1)), k[i] = k.toList.getD i 0 := fun i hi => by
    rw [List.getD_eq_getElem _ _ (by simpa using hi), Vector.getElem_toList]
  simp only [roundKey, scheduleKey, hword]

/-- The state after round key 0 and r full rounds. -/
def roundsRun (round : Block → Block → Block) (key : Nat → Block) (x : Block) : Nat → Block
  | 0 => x.xor (key 0)
  | r + 1 => round (roundsRun round key x r) (key (r + 1))

theorem fold_roundKey_eq_roundsRun (round : Block → Block → Block) {n : Nat} (k : Vector Word (4 * (n + 1))) (x : Block)
    (m : Nat) (hm : m ≤ n - 1) :
    Nat.fold m (fun r hr s => round s (roundKey k (r + 1) (by omega))) (x.xor (roundKey k 0 (Nat.zero_le n))) =
      roundsRun round (scheduleKey k) x m := by
  induction m with
  | zero => rw [Nat.fold_zero, roundKey_eq_scheduleKey, roundsRun]
  | succ m ih => rw [Nat.fold_succ, ih (by omega), roundKey_eq_scheduleKey, roundsRun]

theorem encryptBlock_eq_roundsRun {n : Nat} (k : Vector Word (4 * (n + 1))) (x : Block) :
    encryptBlock k x = encFinalRound (roundsRun encRound (scheduleKey k) x (n - 1)) (scheduleKey k n) := by
  rw [encryptBlock, fold_roundKey_eq_roundsRun encRound k x (n - 1) le_rfl, roundKey_eq_scheduleKey]

theorem decryptBlock_eq_roundsRun {n : Nat} (k : Vector Word (4 * (n + 1))) (x : Block) :
    decryptBlock k x = decFinalRound (roundsRun decRound (scheduleKey k) x (n - 1)) (scheduleKey k n) := by
  rw [decryptBlock, fold_roundKey_eq_roundsRun decRound k x (n - 1) le_rfl, roundKey_eq_scheduleKey]

/-! The table rounds in the form of FIPS-197: 43 R213. -/

theorem te1_eq (x : Byte) : te1 x = be32 (gmul (entry sbox x) 3) (gmul (entry sbox x) 2) (entry sbox x) (entry sbox x) := by
  rw [te1, te0_eq, te0Column, rotr32_8_be32]

theorem te2_eq (x : Byte) : te2 x = be32 (entry sbox x) (gmul (entry sbox x) 3) (gmul (entry sbox x) 2) (entry sbox x) := by
  rw [te2, te0_eq, te0Column, rotr32_16_be32]

theorem te3_eq (x : Byte) : te3 x = be32 (entry sbox x) (entry sbox x) (gmul (entry sbox x) 3) (gmul (entry sbox x) 2) := by
  rw [te3, te0_eq, te0Column, rotr32_24_be32]

theorem encColumn_eq_mixColumn (a b c d : Word) :
    encColumn a b c d = mixColumn 2 3 1 1
      (be32 (entry sbox (byte0 a)) (entry sbox (byte1 b)) (entry sbox (byte2 c)) (entry sbox (byte3 d))) := by
  simp only [encColumn, te0_eq, te0Column, te1_eq, te2_eq, te3_eq, mixColumn_be32, be32_xor, gmul_one_right]

theorem decColumn_eq_mixColumn (a b c d : Word) :
    decColumn a b c d = mixColumn 14 11 13 9
      (be32 (entry isbox (byte0 a)) (entry isbox (byte1 b)) (entry isbox (byte2 c)) (entry isbox (byte3 d))) := by
  simp only [decColumn, td0_eq, td0Column, td1_eq, td2_eq, td3_eq, mixColumn_be32, be32_xor]

theorem encFinalColumn_eq_be32 (a b c d : Word) :
    encFinalColumn a b c d =
      be32 (entry sbox (byte0 a)) (entry sbox (byte1 b)) (entry sbox (byte2 c)) (entry sbox (byte3 d)) :=
  xor_masked_be32 _ _ _ _

theorem decFinalColumn_eq_be32 (a b c d : Word) :
    decFinalColumn a b c d =
      be32 (entry isbox (byte0 a)) (entry isbox (byte1 b)) (entry isbox (byte2 c)) (entry isbox (byte3 d)) :=
  xor_masked_be32 _ _ _ _

/-- The forward substitution and row shift, common to the full and the final round. -/
def subShift (s : Block) : Block := shiftRows (substBytes sbox s)

/-- The inverse substitution and row shift. -/
def invSubShift (s : Block) : Block := invShiftRows (substBytes isbox s)

theorem encRound_eq (s k : Block) : encRound s k = (mixColumns (subShift s)).xor k := by
  simp only [encRound, encColumn_eq_mixColumn, mixColumns, subShift, shiftRows, substBytes, byte0_be32, byte1_be32,
    byte2_be32, byte3_be32]

theorem encFinalRound_eq (s k : Block) : encFinalRound s k = (subShift s).xor k := by
  simp only [encFinalRound, encFinalColumn_eq_be32, subShift, shiftRows, substBytes, byte0_be32, byte1_be32, byte2_be32,
    byte3_be32]

theorem decRound_eq (s k : Block) : decRound s k = (invMixColumns (invSubShift s)).xor k := by
  simp only [decRound, decColumn_eq_mixColumn, invMixColumns, invSubShift, invShiftRows, substBytes, byte0_be32, byte1_be32,
    byte2_be32, byte3_be32]

theorem decFinalRound_eq (s k : Block) : decFinalRound s k = (invSubShift s).xor k := by
  simp only [decFinalRound, decFinalColumn_eq_be32, invSubShift, invShiftRows, substBytes, byte0_be32, byte1_be32, byte2_be32,
    byte3_be32]

/-! Each part of a round is undone: 43 R212. -/

theorem Block.xor_xor_cancel (x k : Block) : (x.xor k).xor k = x := by
  simp only [Block.xor, BitVec.xor_assoc, BitVec.xor_self, BitVec.xor_zero]

theorem invSubShift_subShift (s : Block) : invSubShift (subShift s) = s := by
  simp only [invSubShift, subShift, invShiftRows, shiftRows, substBytes, byte0_be32, byte1_be32, byte2_be32, byte3_be32,
    isbox_sbox, be32_bytes]

/-- Circulant matrices multiply as polynomials modulo `x^4 + 1`. -/
theorem mixColumn_mixColumn (k0 k1 k2 k3 p0 p1 p2 p3 : Byte) (w : Word) :
    mixColumn k0 k1 k2 k3 (mixColumn p0 p1 p2 p3 w) =
      mixColumn (gmul p0 k0 ^^^ gmul p3 k1 ^^^ gmul p2 k2 ^^^ gmul p1 k3)
        (gmul p1 k0 ^^^ gmul p0 k1 ^^^ gmul p3 k2 ^^^ gmul p2 k3)
        (gmul p2 k0 ^^^ gmul p1 k1 ^^^ gmul p0 k2 ^^^ gmul p3 k3)
        (gmul p3 k0 ^^^ gmul p2 k1 ^^^ gmul p1 k2 ^^^ gmul p0 k3) w := by
  simp only [mixColumn, byte0_be32, byte1_be32, byte2_be32, byte3_be32, gmul_xor_left, gmul_xor_right, gmul_assoc]
  congr 1
  all_goals ac_rfl

theorem mixColumn_one (w : Word) : mixColumn 1 0 0 0 w = w := by
  simp only [mixColumn, gmul_one_right, gmul_zero_right]
  simp [be32_bytes]

/-- The two mix matrices are inverse (42 R195). -/
theorem invMixColumn_mixColumn (w : Word) : mixColumn 14 11 13 9 (mixColumn 2 3 1 1 w) = w :=
  (mixColumn_mixColumn 14 11 13 9 2 3 1 1 w).trans (mixColumn_one w)

theorem invMixColumns_mixColumns (s : Block) : invMixColumns (mixColumns s) = s := by
  simp only [invMixColumns, mixColumns, invMixColumn_mixColumn]

theorem mixColumn_xor (k0 k1 k2 k3 : Byte) (v w : Word) :
    mixColumn k0 k1 k2 k3 (v ^^^ w) = mixColumn k0 k1 k2 k3 v ^^^ mixColumn k0 k1 k2 k3 w := by
  simp only [mixColumn, byte0, byte1, byte2, byte3, BitVec.extractLsb'_xor, gmul_xor_left, be32_xor]
  congr 1
  all_goals ac_rfl

theorem invMixColumns_xor (s k : Block) : invMixColumns (s.xor k) = (invMixColumns s).xor (invMixColumns k) := by
  simp only [invMixColumns, Block.xor, mixColumn_xor]

/-- An inverse round under the mixed round key undoes a forward round that stands between two substitutions. -/
theorem decRound_subShift_encRound (s k : Block) : decRound (subShift (encRound s k)) (invMixColumns k) = subShift s := by
  rw [decRound_eq, invSubShift_subShift, encRound_eq, invMixColumns_xor, invMixColumns_mixColumns, Block.xor_xor_cancel]

/-- The round keys of the inverse schedule: the forward ones in reverse, mixed between the first and the last (42 R194). -/
theorem scheduleKey_invKeySchedule {n : Nat} (ek : Vector Word (4 * (n + 1))) {r : Nat} (hr : r ≤ n) :
    scheduleKey (invKeySchedule ek) r =
      if 0 < r ∧ r < n then invMixColumns (scheduleKey ek (n - r)) else scheduleKey ek (n - r) := by
  have hword := fun c => getElem_invKeySchedule ek (c := c) hr
  rw [← roundKey_eq_scheduleKey _ hr, ← roundKey_eq_scheduleKey _ (Nat.sub_le n r)]
  simp only [roundKey, invMixColumns, ← invMixWord_eq_mixColumn]
  have h0 := hword 0 (by decide)
  simp only [Nat.add_zero] at h0
  rw [h0, hword 1 (by decide), hword 2 (by decide), hword 3 (by decide)]
  split
  · rfl
  · rfl

section

variable {n : Nat} (ek : Vector Word (4 * (n + 1))) (x : Block)

/-- The inverse run goes back through the states of the forward run: after r rounds it stands at the substituted and shifted
form of the state r rounds before the last. -/
theorem roundsRun_decRound_encryptBlock {r : Nat} (hr : r + 1 ≤ n) :
    roundsRun decRound (scheduleKey (invKeySchedule ek)) (encryptBlock ek x) r =
      subShift (roundsRun encRound (scheduleKey ek) x (n - 1 - r)) := by
  induction r with
  | zero =>
    rw [roundsRun, scheduleKey_invKeySchedule ek (Nat.zero_le n), if_neg (by omega), encryptBlock_eq_roundsRun,
      encFinalRound_eq, Nat.sub_zero, Nat.sub_zero, Block.xor_xor_cancel]
  | succ r ih =>
    have hkey : n - (r + 1) = n - 1 - (r + 1) + 1 := by omega
    have hstate : n - 1 - r = n - 1 - (r + 1) + 1 := by omega
    rw [roundsRun, ih (by omega), scheduleKey_invKeySchedule ek (by omega), if_pos (by omega), hkey, hstate, roundsRun,
      decRound_subShift_encRound]

theorem decryptBlock_encryptBlock (hn : 1 ≤ n) : decryptBlock (invKeySchedule ek) (encryptBlock ek x) = x := by
  rw [decryptBlock_eq_roundsRun, roundsRun_decRound_encryptBlock ek x (by omega), scheduleKey_invKeySchedule ek le_rfl,
    if_neg (by omega), decFinalRound_eq, invSubShift_subShift, Nat.sub_self, Nat.sub_self, roundsRun, Block.xor_xor_cancel]

end

theorem AesRounds.one_le_val (nr : AesRounds) : 1 ≤ nr.val := by cases nr <;> decide

/-! Blocks in memory: 43 R214 and R215, 44 R249 and R250. -/

/-- A byte of memory is a byte of the word it stands in, first byte most significant. -/
theorem Memory.read_eq_extractLsb'_readWord (m : Memory) (a : Nat) {k : Nat} (hk : k < 4) :
    m.read (a + k) = (m.readWord a).extractLsb' (24 - 8 * k) 8 :=
  match k, hk with
  | 0, _ => (byte0_be32 _ _ _ _).symm
  | 1, _ => (byte1_be32 _ _ _ _).symm
  | 2, _ => (byte2_be32 _ _ _ _).symm
  | 3, _ => (byte3_be32 _ _ _ _).symm

theorem Memory.readWord_writeBlock (m : Memory) (d n : Nat) (y : Block) {c : Nat} {w : Word}
    (h : [y.w0, y.w1, y.w2, y.w3][c]? = some w) : (m.writeBlock d n y).readWord (d + 16 * n + 4 * c) = w := by
  have hy := m.readBlock_writeBlock_self d n y
  match c, h with
  | 0, rfl => exact congrArg Block.w0 hy
  | 1, rfl => exact congrArg Block.w1 hy
  | 2, rfl => exact congrArg Block.w2 hy
  | 3, rfl => exact congrArg Block.w3 hy

theorem Memory.readWord_writeHalves (m : Memory) (d n : Nat) (y : Word × Word) {c : Nat} {w : Word}
    (h : [y.1, y.2][c]? = some w) : (m.writeHalves d n y).readWord (d + 8 * n + 4 * c) = w := by
  have hy := m.readHalves_writeHalves_self d n y
  match c, h with
  | 0, rfl => exact congrArg Prod.fst hy
  | 1, rfl => exact congrArg Prod.snd hy

/-! The block commands check by check: 43 R216 and R217, 44 R251. -/

/-- A command that raises what `blockFault` reports has the first four faults of a block command. -/
theorem blockOperandFaults_of_raise {i : Instr} {opc : Byte} {n : Nat} {s : State}
    (h : ∀ code, s.blockFault n = some code → exec i s = raise code opc s) : BlockOperandFaults i opc n s :=
  ⟨fun h0 => h _ (State.blockFault_null h0), fun h0 h1 hl => h _ (State.blockFault_length h0 h1 hl),
    fun h0 h1 h2 hm hb => h _ (State.blockFault_bounds h0 h1 h2 hm hb),
    fun h0 h1 h2 hm hd ha hne hlt hgt => h _ (State.blockFault_overlap h0 h1 h2 hm hd ha hne hlt hgt)⟩

section

variable {opc : Byte} {blocks : AesContext → Option Block → Memory → Nat → Nat → Nat → Memory} {s : State} {c : AesContext}

theorem aesCommand_uninit (h : s.aes = none) : aesCommand opc blocks s = raise .uninit opc s := by
  rw [aesCommand, h]

theorem aesCommand_blockFault (hc : s.aes = some c) {code : FaultCode} (h : s.blockFault 16 = some code) :
    aesCommand opc blocks s = raise code opc s := by
  rw [aesCommand, hc]
  simp only [h]

theorem aesCommand_noIv (hc : s.aes = some c) (hg : BlockOperandsGood 16 s) (h : c.startChain = none) :
    aesCommand opc blocks s = raise .noIv opc s := by
  rw [aesCommand, hc]
  simp only [(s.blockFault_eq_none 16).2 hg, h]

theorem aesCommand_done (hc : s.aes = some c) (hg : BlockOperandsGood 16 s) {chain : Option Block}
    (h : c.startChain = some chain) :
    aesCommand opc blocks s =
      .next ((s.setMem (blocks c chain s.mem s.a0.toNat s.a1.toNat (s.a2.toNat / 16))).setRes s.a2) := by
  rw [aesCommand, hc]
  simp only [(s.blockFault_eq_none 16).2 hg, h, done]

/-- Good operands as numbers: whole blocks, in place or disjoint (20 R97). -/
theorem BlockOperandsGood.wholeBlocks_place {n : Nat} (hg : BlockOperandsGood n s) :
    n * (s.a2.toNat / n) = s.a2.toNat ∧ (s.a0.toNat = s.a1.toNat ∨ s.a0.toNat + n * (s.a2.toNat / n) ≤ s.a1.toNat ∨
      s.a1.toNat + n * (s.a2.toNat / n) ≤ s.a0.toNat) := by
  obtain ⟨-, -, -, hmod, -, -, hplace⟩ := hg
  have hlen := Nat.mul_div_cancel' (Nat.dvd_of_mod_eq_zero hmod)
  rw [hlen]
  exact ⟨rfl, hplace.imp_left (congrArg BitVec.toNat)⟩

/-- AES.ENC from a chaining value, absent in ECB (43 R216). -/
theorem exec_aesEnc_done (hc : s.aes = some c) (hg : BlockOperandsGood 16 s) {chain : Option Block}
    (h : c.startChain = some chain) :
    ∃ m, exec .aesEnc s = .next { s with mem := m, res := s.a2 } ∧
      (∀ n, n < s.a2.toNat / 16 → m.readBlock s.a0.toNat n = encryptBlock c.ek
        (chainXor (s.mem.readBlock s.a1.toNat n)
          (chain.map fun iv => if n = 0 then iv else m.readBlock s.a0.toNat (n - 1)))) ∧
      SameOutside s.mem m s.a0.toNat s.a2.toNat := by
  obtain ⟨hlen, hplace⟩ := hg.wholeBlocks_place
  exact ⟨_, aesCommand_done hc hg h, fun n hn => aesEncMem_block c chain s.mem _ _ hn hplace,
    fun x hx => aesEncMem_read_outside c chain s.mem _ _ _ (by rwa [hlen])⟩

/-- AES.DEC from a chaining value, absent in ECB (43 R217). -/
theorem exec_aesDec_done (hc : s.aes = some c) (hg : BlockOperandsGood 16 s) {chain : Option Block}
    (h : c.startChain = some chain) :
    ∃ m, exec .aesDec s = .next { s with mem := m, res := s.a2 } ∧
      (∀ n, n < s.a2.toNat / 16 → m.readBlock s.a0.toNat n =
        chainXor (decryptBlock c.dk (s.mem.readBlock s.a1.toNat n))
          (chain.map fun iv => if n = 0 then iv else s.mem.readBlock s.a1.toNat (n - 1))) ∧
      SameOutside s.mem m s.a0.toNat s.a2.toNat := by
  obtain ⟨hlen, hplace⟩ := hg.wholeBlocks_place
  exact ⟨_, aesCommand_done hc hg h, fun n hn => aesDecMem_block c chain s.mem _ _ hn hplace,
    fun x hx => aesDecMem_read_outside c chain s.mem _ _ _ (by rwa [hlen])⟩

end

end Sys2Proof.Machine

namespace Sys2Proof.Proofs

open Sys2Proof Sys2Proof.Machine

/-- Settles O39: the states are those of `roundsRun`; its start and its steps are the rounds by definition. -/
theorem encryptBlockRunsTheRounds : Obligations.EncryptBlockRunsTheRounds := by
  unfold Obligations.EncryptBlockRunsTheRounds
  intro nr k x
  refine ⟨roundsRun encRound (scheduleKey k) x, rfl, fun r h1 _ => ?_, encryptBlock_eq_roundsRun k x⟩
  obtain ⟨r, rfl⟩ := Nat.exists_eq_add_of_le' h1
  rfl

/-- Settles O41: the states are those of `roundsRun`; the run of the inverse rounds goes back through the forward states. -/
theorem aesBlockRoundTrip : Obligations.AesBlockRoundTrip := by
  unfold Obligations.AesBlockRoundTrip
  refine ⟨fun nr k x => ?_, fun nr ek x => decryptBlock_encryptBlock ek x nr.one_le_val⟩
  refine ⟨roundsRun decRound (scheduleKey k) x, rfl, fun r h1 _ => ?_, decryptBlock_eq_roundsRun k x⟩
  obtain ⟨r, rfl⟩ := Nat.exists_eq_add_of_le' h1
  rfl

/-- Settles O42: the words of a stored block read back as they are, and a byte is a byte of its word. -/
theorem blockLoadAndStore : Obligations.BlockLoadAndStore := by
  unfold Obligations.BlockLoadAndStore
  refine ⟨fun m a n => ⟨rfl, rfl⟩, fun m d n y => ⟨fun c k w hw hk => ?_, fun x hx => m.read_writeBlock_other y hx⟩,
    fun m d n y => ⟨fun c k w hw hk => ?_, fun x hx => m.read_writeHalves_other y hx⟩⟩
  · rw [Memory.read_eq_extractLsb'_readWord _ _ hk, m.readWord_writeBlock d n y hw]
  · rw [Memory.read_eq_extractLsb'_readWord _ _ hk, m.readWord_writeHalves d n y hw]

/-- Settles O43: each fault is a check of the command; the chaining value is absent in ECB and starts as the IV in CBC. -/
theorem aesEncRule : Obligations.AesEncRule := by
  unfold Obligations.AesEncRule
  refine ⟨rfl, fun s => ⟨aesCommand_uninit, fun c hc => ⟨blockOperandFaults_of_raise fun _ => aesCommand_blockFault hc,
    fun hg hm hiv => aesCommand_noIv hc hg (AesContext.startChain_noIv hm hiv), fun hg hm => ?_, fun iv hg hm hiv => ?_⟩⟩⟩
  · simpa only [Option.map_none, chainXor] using exec_aesEnc_done hc hg (AesContext.startChain_ecb hm)
  · simpa only [Option.map_some, chainXor] using exec_aesEnc_done hc hg (AesContext.startChain_cbc hm hiv)

/-- Settles O44: each fault is a check of the command; the chaining values are those of the source. -/
theorem aesDecRule : Obligations.AesDecRule := by
  unfold Obligations.AesDecRule
  refine ⟨rfl, fun s => ⟨aesCommand_uninit, fun c hc => ⟨blockOperandFaults_of_raise fun _ => aesCommand_blockFault hc,
    fun hg hm hiv => aesCommand_noIv hc hg (AesContext.startChain_noIv hm hiv), fun hg hm => ?_, fun iv hg hm hiv => ?_⟩⟩⟩
  · simpa only [Option.map_none, chainXor] using exec_aesDec_done hc hg (AesContext.startChain_ecb hm)
  · simpa only [Option.map_some, chainXor] using exec_aesDec_done hc hg (AesContext.startChain_cbc hm hiv)

end Sys2Proof.Proofs

/-! SUPPORT. The Blowfish unit (spec/44): each round of decryption undoing a round of encryption, the key bytes of the P-array,
the bootstrap as one run, and the commands check by check. -/

namespace Sys2Proof.Machine

open Sys2Proof

/-! The block functions: 44 R243. -/

theorem bfDecryptBlock_eq_bfEncryptBlock (c : BfContext) (lr : Word × Word) :
    bfDecryptBlock c lr = bfEncryptBlock { c with p := Vector.ofFn fun i => c.p[17 - i.val] } lr := by
  simp only [bfDecryptBlock, bfEncryptBlock, Vector.getElem_ofFn]

/-- A round of decryption undoes the last subkey and the last round of an encryption, and leaves an encryption that ends one
round earlier. -/
theorem bfRound_bfFinish_bfRound (s : Vector (Vector Word 256) 4) (k kr kl : Word) (lr : Word × Word) :
    bfRound s kl (bfFinish kr kl (bfRound s k lr)) = bfFinish k kr lr := by
  have hcancel (x y : Word) : x ^^^ y ^^^ y = x := by rw [BitVec.xor_assoc, BitVec.xor_self, BitVec.xor_zero]
  have hcancel_under (x y z : Word) : x ^^^ y ^^^ z ^^^ y = x ^^^ z := by
    rw [BitVec.xor_assoc x y z, BitVec.xor_comm y z, ← BitVec.xor_assoc, hcancel]
  simp only [bfRound, bfFinish, hcancel, hcancel_under]

theorem bfFinish_bfFinish (a b : Word) (lr : Word × Word) : bfFinish b a (bfFinish a b lr) = lr := by
  simp only [bfFinish, BitVec.xor_assoc, BitVec.xor_self, BitVec.xor_zero]

/-- After n rounds of decryption the block stands where encryption would end after `16 - n` rounds. -/
theorem fold_decryptRounds_bfEncryptBlock (c : BfContext) (lr : Word × Word) {m n : Nat} (h : m + n = 16) :
    Nat.fold n (fun i _ lr => bfRound c.s c.p[17 - i] lr) (bfEncryptBlock c lr) =
      bfFinish c.p[m] c.p[m + 1] (Nat.fold m (fun i _ lr => bfRound c.s c.p[i] lr) lr) := by
  induction n generalizing m with
  | zero =>
    obtain rfl : m = 16 := h
    rfl
  | succ n ih =>
    have hkey : 17 - n = m + 1 + 1 := by omega
    rw [Nat.fold_succ, ih (m := m + 1) (by omega), Nat.fold_succ]
    simp only [hkey, bfRound_bfFinish_bfRound]

theorem bfDecryptBlock_bfEncryptBlock (c : BfContext) (lr : Word × Word) :
    bfDecryptBlock c (bfEncryptBlock c lr) = lr := by
  rw [bfDecryptBlock, fold_decryptRounds_bfEncryptBlock c lr (m := 0) rfl]
  exact bfFinish_bfFinish _ _ _

/-! The scheduler: 44 R245 and R246. -/

theorem getElem_bfKeyXor (key : Nat → Byte) (len : Nat) (c : BfContext) {i : Nat} (hi : i < 18) :
    (bfKeyXor key len c).p[i] = c.p[i] ^^^ bfKeyWord key len i := Vector.getElem_ofFn hi

/-- A position that advances by 4 and wraps at the key length is that of byte 4i of the repeated key. -/
theorem keyPosition_eq {len : Nat} {j : Nat → Nat} (h0 : j 0 = 0) (hstep : ∀ i, j (i + 1) = (j i + 4) % len) (i : Nat) :
    j i = 4 * i % len := by
  induction i with
  | zero => rw [h0, Nat.mul_zero, Nat.zero_mod]
  | succ i ih => rw [hstep, ih, Nat.mod_add_mod, Nat.mul_succ]

/-- Encryption n of the bootstrap: the block is encrypted, and written as pair n. -/
def bfBootStep (n : Nat) (cl : BfContext × (Word × Word)) : BfContext × (Word × Word) :=
  (bfWritePair cl.1 n (bfEncryptBlock cl.1 cl.2), bfEncryptBlock cl.1 cl.2)

/-- The context and the block after the first n encryptions of the bootstrap (44 R246). -/
def bfBootRun (c : BfContext) : Nat → BfContext × (Word × Word)
  | 0 => (c, (0, 0))
  | n + 1 => bfBootStep n (bfBootRun c n)

theorem bfBootP_eq_bfBootStep {k : Nat} (hk : k < 9) (cl : BfContext × (Word × Word)) :
    bfBootP k hk cl = bfBootStep k cl := by
  simp only [bfBootP, bfBootStep, bfWritePair, hk, dite_true]

theorem bfBootS_eq_bfBootStep {b k : Nat} (hb : b < 4) (hk : k < 128) (cl : BfContext × (Word × Word)) :
    bfBootS b hb k hk cl = bfBootStep (9 + 128 * b + k) cl := by
  have hP : ¬ 9 + 128 * b + k < 9 := by omega
  have hbox : (9 + 128 * b + k - 9) / 128 = b := by omega
  have hpair : (9 + 128 * b + k - 9) % 128 = k := by omega
  simp only [bfBootS, bfBootStep, bfWritePair, hP, hbox, hpair, hb, dite_true, dite_false]

/-- A loop whose steps go through a sequence of states ends in the sequence. -/
theorem fold_eq_of_steps {α : Type} (x : Nat → α) {n : Nat} (f : (i : Nat) → i < n → α → α)
    (h : ∀ i hi, f i hi (x i) = x (i + 1)) : Nat.fold n f (x 0) = x n := by
  induction n with
  | zero => rfl
  | succ n ih => rw [Nat.fold_succ, ih _ fun i hi => h i (Nat.lt_succ_of_lt hi), h]

/-- The loops over the P-array and over the four S-boxes are stretches of the one run. -/
theorem bfBootstrap_eq_bfBootRun (c : BfContext) : bfBootstrap c = (bfBootRun c 521).1 := by
  have hp : Nat.fold 9 (fun k hk cl => bfBootP k hk cl) (c, (0, 0)) = bfBootRun c 9 :=
    fold_eq_of_steps (bfBootRun c) _ fun k hk => bfBootP_eq_bfBootStep hk _
  have hbox (b : Nat) (hb : b < 4) :
      Nat.fold 128 (fun k hk cl => bfBootS b hb k hk cl) (bfBootRun c (9 + 128 * b)) = bfBootRun c (9 + 128 * (b + 1)) :=
    fold_eq_of_steps (fun k => bfBootRun c (9 + 128 * b + k)) _ fun k hk => bfBootS_eq_bfBootStep hb hk _
  have hs := fold_eq_of_steps (fun b => bfBootRun c (9 + 128 * b)) _ hbox
  rw [bfBootstrap, hp]
  exact congrArg Prod.fst hs

/-! BF.INIT: 44 R247. -/

theorem exec_bfInit_nullPtr {s : State} (h0 : s.a0 = 0) : exec .bfInit s = raise .nullPtr 0x40 s :=
  if_pos (by simpa using h0)

theorem exec_bfInit_fails {s : State} (h0 : s.a0 ≠ 0) (h : s.a1 = 0 ∨ 56 < s.a1.toNat) :
    exec .bfInit s = .next ((s.setBf none).setRes 0) :=
  (if_neg (by simpa using h0)).trans (if_pos (by simpa using h))

theorem exec_bfInit_bounds {s : State} (h0 : s.a0 ≠ 0) (h1 : s.a1 ≠ 0) (h56 : s.a1.toNat ≤ 56)
    (hr : s.params.memSize < s.a0.toNat + s.a1.toNat) : exec .bfInit s = raise .bounds 0x40 s :=
  (if_neg (by simpa using h0)).trans <| (if_neg (by simpa using ⟨h1, h56⟩)).trans (if_pos (by simpa using hr))

theorem exec_bfInit_done {s : State} (h0 : s.a0 ≠ 0) (h1 : s.a1 ≠ 0) (h56 : s.a1.toNat ≤ 56)
    (hr : s.a0.toNat + s.a1.toNat ≤ s.params.memSize) :
    exec .bfInit s =
      .next ((s.setBf (some (bfSchedule (fun k => s.mem.read (s.a0.toNat + k)) s.a1.toNat))).setRes 1) :=
  (if_neg (by simpa using h0)).trans <| (if_neg (by simpa using ⟨h1, h56⟩)).trans (if_neg (by simpa using hr))

/-! BF.ENC and BF.DEC: 44 R251 and R252. -/

section

variable {opc : Byte} {f : BfContext → Word × Word → Word × Word} {s : State} {c : BfContext}

/-- BF.ENC and BF.DEC are one operation under two OPC bytes, each with its block function. -/
theorem exec_eq_bfCommand {i : Instr}
    (h : (i = .bfEnc ∧ opc = 0x41 ∧ f = bfEncryptBlock) ∨ (i = .bfDec ∧ opc = 0x42 ∧ f = bfDecryptBlock)) (s : State) :
    exec i s = bfCommand opc f s := by
  obtain ⟨rfl, rfl, rfl⟩ | ⟨rfl, rfl, rfl⟩ := h
  · rfl
  · rfl

theorem bfCommand_uninit (h : s.bf = none) : bfCommand opc f s = raise .uninit opc s := by
  rw [bfCommand, h]

theorem bfCommand_blockFault (hc : s.bf = some c) {code : FaultCode} (h : s.blockFault 8 = some code) :
    bfCommand opc f s = raise code opc s := by
  rw [bfCommand, hc]
  simp only [h]

/-- The blocks a completing command writes, from the source as it stood before, and its frame. -/
theorem bfCommand_done (hc : s.bf = some c) (hg : BlockOperandsGood 8 s) :
    ∃ m, bfCommand opc f s = .next (s.setMem m) ∧
      (∀ n, n < s.a2.toNat / 8 → m.readHalves s.a0.toNat n = f c (s.mem.readHalves s.a1.toNat n)) ∧
      SameOutside s.mem m s.a0.toNat s.a2.toNat := by
  obtain ⟨hlen, hplace⟩ := hg.wholeBlocks_place
  refine ⟨bfMem (f c) s.mem s.a0.toNat s.a1.toNat (s.a2.toNat / 8), ?_, fun n hn => bfMem_block (f c) s.mem _ _ hn hplace,
    fun x hx => bfMem_read_outside (f c) s.mem _ _ _ (by rwa [hlen])⟩
  rw [bfCommand, hc]
  simp only [(s.blockFault_eq_none 8).2 hg, done]

end

end Sys2Proof.Machine

namespace Sys2Proof.Proofs

open Sys2Proof Sys2Proof.Machine

/-- Settles O50: the subkeys in reverse are the same rounds; each of them undoes the last round of encryption not yet undone. -/
theorem bfDecryptBlockUndoesEncrypt : Obligations.BfDecryptBlockUndoesEncrypt := by
  unfold Obligations.BfDecryptBlockUndoesEncrypt
  exact fun c lr => ⟨bfDecryptBlock_eq_bfEncryptBlock c lr, bfDecryptBlock_bfEncryptBlock c lr⟩

/-- Settles O51: the running position is the position in the repeated key, so its four bytes are those of the key word. -/
theorem bfKeyXorRule : Obligations.BfKeyXorRule := by
  unfold Obligations.BfKeyXorRule
  refine ⟨⟨rfl, rfl⟩, fun key len c j _ h0 hstep => ⟨rfl, fun i hi => ?_⟩⟩
  rw [getElem_bfKeyXor key len c hi, keyPosition_eq h0 hstep]
  simp only [bfKeyWord, Nat.mod_add_mod]

/-- Settles O52: the contexts and the blocks are those of `bfBootRun`. -/
theorem bfBootstrapRule : Obligations.BfBootstrapRule := by
  unfold Obligations.BfBootstrapRule
  exact fun c => ⟨fun n => (bfBootRun c n).1, fun n => (bfBootRun c n).2, rfl, rfl, fun n _ => ⟨rfl, rfl⟩,
    bfBootstrap_eq_bfBootRun c⟩

/-- Settles O54: each fault is a check of the command, and where all pass the loop writes the blocks. -/
theorem bfEncDecRule : Obligations.BfEncDecRule := by
  unfold Obligations.BfEncDecRule
  refine ⟨rfl, rfl, fun s i opc f hi => ?_⟩
  have hexec := exec_eq_bfCommand hi s
  refine ⟨fun hn => hexec.trans (bfCommand_uninit hn), fun c hc => ⟨blockOperandFaults_of_raise fun _ hb =>
    hexec.trans (bfCommand_blockFault hc hb), fun hg => ?_⟩⟩
  rw [hexec]
  exact bfCommand_done hc hg

/-- Settles O53: each fault is a check of the command, and so is the recoverable failure. -/
theorem bfInitRule : Obligations.BfInitRule := by
  unfold Obligations.BfInitRule
  exact ⟨rfl, fun s => ⟨exec_bfInit_nullPtr, exec_bfInit_fails, exec_bfInit_bounds, exec_bfInit_done⟩⟩

end Sys2Proof.Proofs

/-! SUPPORT. The sticky fault (spec/60 R274) and the record a submitted word leaves (R272, R273): what a write to CMD does while
FAULT = 1, and that the OPC byte of a word is the one of the command it names. -/

namespace Sys2Proof.Machine

open Sys2Proof

theorem submit_of_fault {s : State} (hs : s.fault = true) (w : Word) : submit w s = .next s :=
  if_pos hs

theorem step_writeReg_cmd_of_fault {s : State} {w : Word} {rest : List HostAction} (hs : s.fault = true)
    (h : s.host = .writeReg 0 w :: rest) : step s = .next { s with host := rest } :=
  (step_of_host h).trans (submit_of_fault (s := { s with host := rest }) hs w)

theorem step_writeMem_of_lt {s : State} {a : Nat} {v : Byte} {rest : List HostAction} (ha : a < s.params.memSize)
    (h : s.host = .writeMem a v :: rest) : step s = .next { s with mem := s.mem.write a v, host := rest } :=
  (step_of_host h).trans (if_pos ha)

theorem State.hostReadMem_of_lt {s : State} {a : Nat} (ha : a < s.params.memSize) : s.hostReadMem a = some (s.mem.read a) :=
  if_pos ha

/-- While FAULT = 1 only the reset event writes the record (60 R274). -/
theorem step_keeps_record_or_reset {s t : State} (hs : s.fault = true) (h : step s = .next t) :
    (t.fault = true ∧ t.err = s.err ∧ t.fopc = s.fopc) ∨ ∃ rest, s.host = .reset :: rest := by
  obtain ⟨-, rfl⟩ | ⟨rest, hreset, -⟩ | ⟨a, v, rest, -, -, rfl⟩ | ⟨n, v, rest, -, -, rfl⟩ | ⟨w, rest, -, hw⟩ := step_cases h
  · exact .inl ⟨hs, rfl, rfl⟩
  · exact .inr ⟨rest, hreset⟩
  · exact .inl ⟨hs, rfl, rfl⟩
  · exact .inl ⟨hs, rfl, rfl⟩
  · cases (submit_of_fault (s := { s with host := rest }) hs w).symm.trans hw
    exact .inl ⟨hs, rfl, rfl⟩

theorem opcField_of_decode_ok {w : Word} {i : Instr} (h : decode w = .ok i) : opcField w = opcOf i :=
  ((encode_eq_iff i w).1 ((decode_eq_ok_iff w i).1 h)).2.2

/-- A submitted word that ends with FAULT = 1 where FAULT was 0 ended with fault entry under its own OPC byte (60 R272). -/
theorem submit_enterFault {s t : State} {w : Word} (hs : s.fault = false) (h : submit w s = .next t) (ht : t.fault = true) :
    ∃ code, t = s.enterFault code (opcField w) := by
  obtain ⟨hfault, -⟩ | ⟨i, -, hi, hexec⟩ | ⟨e, -, -, hraise⟩ := submit_cases w s
  · simp [hs] at hfault
  · rw [opcField_of_decode_ok hi]
    exact exec_enterFault hs (hexec.symm.trans h) ht
  · exact ⟨.illegalCmd, Host.Outcome.next.inj (h.symm.trans hraise)⟩

end Sys2Proof.Machine

namespace Sys2Proof.Proofs

open Sys2Proof Sys2Proof.Machine

/-- Settles O3: a submitted word is dropped while FAULT = 1, the other accesses do not look at FAULT, and of the steps only the
reset event writes the record. -/
theorem faultIsStickyUntilReset : Obligations.FaultIsStickyUntilReset := by
  unfold Obligations.FaultIsStickyUntilReset
  exact ⟨fun s w rest hs h => step_writeReg_cmd_of_fault hs h,
    fun s v rest _ => ⟨step_of_host, step_of_host, step_of_host⟩,
    fun s a v rest _ ha h => step_writeMem_of_lt ha h,
    fun s _ => ⟨rfl, rfl, rfl, rfl, rfl, fun a ha => State.hostReadMem_of_lt ha⟩,
    fun s t hs h => step_keeps_record_or_reset hs h⟩

/-- Settles O14: a fault is fault entry, for a command and for a submitted word. -/
theorem faultChangesOnlyTheRecord : Obligations.FaultChangesOnlyTheRecord := by
  unfold Obligations.FaultChangesOnlyTheRecord
  refine ⟨fun i s t hs h ht => exec_enterFault hs h ht, fun s t w rest hs h hstep ht => ?_⟩
  exact submit_enterFault (s := { s with host := rest }) hs ((step_of_host h).symm.trans hstep) ht

end Sys2Proof.Proofs

/-! SUPPORT. The order of the tests (spec/60 R275): the codes a command can raise in ascending order, the first of them whose
condition holds, and that this is what the command reports. -/

namespace Sys2Proof.Machine

open Sys2Proof

theorem FaultCode.byte_injective : Function.Injective FaultCode.byte :=
  Function.LeftInverse.injective (g := fun b => FaultCode.ofNat (b.toNat - 1)) fun c => by cases c <;> rfl

/-- The codes a command can raise, in test order (the rows of 60 R276). -/
def raisableCodes : Instr → List FaultCode
  | .pkcs5PadLen => [.blockSize, .overflow]
  | .pkcs5Pad => [.nullPtr, .blockSize, .overflow, .bounds]
  | .pkcs5UnpadLen => [.nullPtr, .length, .bounds, .padValue]
  | .pkcs5ChkLen => [.blockSize]
  | .rc4Init => [.nullPtr, .keyLen, .bounds]
  | .rc4Enc | .rc4Dec => [.uninit, .nullPtr, .bounds]
  | .aesInit _ => [.bounds]
  | .aesEnc | .aesDec => [.uninit, .nullPtr, .length, .bounds, .overlap, .noIv]
  | .aesIsInit => []
  | .bfInit => [.nullPtr, .bounds]
  | .bfEnc | .bfDec => [.uninit, .nullPtr, .length, .bounds, .overlap]

/-- The test order is the order of the codes (60 R275). -/
theorem raisableCodes_ascending (i : Instr) : (raisableCodes i).Pairwise fun c d => c.byte.toNat < d.byte.toNat := by
  cases i <;> simp [raisableCodes, FaultCode.byte]

/-- A condition can hold only for a code the command can raise. -/
theorem mem_raisableCodes {i : Instr} {s : State} {code : FaultCode} (h : faultCondition i s code = true) :
    code ∈ raisableCodes i := by
  cases i <;> cases code <;> simp_all [raisableCodes, faultCondition, blockCondition]

/-- The first condition that holds, in test order. -/
def firstCondition (i : Instr) (s : State) : Option FaultCode := (raisableCodes i).find? (faultCondition i s)

theorem firstCondition_eq_none_iff (i : Instr) (s : State) :
    firstCondition i s = none ↔ ∀ c, faultCondition i s c = false := by
  simp only [firstCondition, List.find?_eq_none, Bool.not_eq_true]
  exact ⟨fun h c => Bool.eq_false_iff.2 fun hc => Bool.eq_false_iff.1 (h c (mem_raisableCodes hc)) hc, fun h c _ => h c⟩

/-- The tests before the first one that holds are those of the lower codes. -/
theorem lowest_of_firstCondition {i : Instr} {s : State} {code : FaultCode} (h : firstCondition i s = some code) :
    faultCondition i s code = true ∧ ∀ c, c.byte.toNat < code.byte.toNat → faultCondition i s c = false := by
  obtain ⟨hcond, before, after, hcodes, hbefore⟩ := List.find?_eq_some_iff_append.1 h
  refine ⟨hcond, fun c hlt => Bool.eq_false_iff.2 fun hc => ?_⟩
  have hascending := raisableCodes_ascending i
  have hmem := mem_raisableCodes hc
  rw [hcodes] at hascending hmem
  obtain hin | hin := List.mem_append.1 hmem
  · simpa [hc] using hbefore c hin
  · obtain rfl | hin := List.mem_cons.1 hin
    · exact lt_irrefl _ hlt
    · exact lt_asymm hlt (List.rel_of_pairwise_cons (List.pairwise_append.1 hascending).2.1 hin)

theorem firstCondition_eq_some_iff (i : Instr) (s : State) (code : FaultCode) :
    firstCondition i s = some code ↔
      faultCondition i s code = true ∧ ∀ c, c.byte.toNat < code.byte.toNat → faultCondition i s c = false := by
  refine ⟨lowest_of_firstCondition, fun ⟨hcond, hlow⟩ => ?_⟩
  cases hfirst : firstCondition i s with
  | none => simp [(firstCondition_eq_none_iff i s).1 hfirst] at hcond
  | some d =>
    obtain ⟨hd, hdlow⟩ := lowest_of_firstCondition hfirst
    have hle : code.byte.toNat ≤ d.byte.toNat := not_lt.1 fun hlt => by simp [hlow d hlt] at hd
    have hge : d.byte.toNat ≤ code.byte.toNat := not_lt.1 fun hlt => by simp [hdlow code hlt] at hcond
    rw [FaultCode.byte_injective (BitVec.eq_of_toNat_eq (hge.antisymm hle))]

theorem find?_cons_eq_ite {α : Type} (p : α → Bool) (a : α) (l : List α) :
    (a :: l).find? p = if p a = true then some a else l.find? p := by
  cases h : p a <;> simp [h]

/-- `o` is what a command of OPC byte `opc` answers on `s` where this is the first condition that holds: fault entry with its
code, or, where none holds, a next state with the record as it was. -/
def Reports (opc : Byte) (s : State) (o : StepOutcome) : Option FaultCode → Prop
  | some code => o = raise code opc s
  | none => ∃ t, o = .next t ∧ t.fault = s.fault ∧ t.err = s.err ∧ t.fopc = s.fopc

theorem Reports.of_next {opc : Byte} {s t : State} (hf : t.fault = s.fault := by rfl) (he : t.err = s.err := by rfl)
    (ho : t.fopc = s.fopc := by rfl) : Reports opc s (.next t) none := ⟨t, rfl, hf, he, ho⟩

/-- One test of a command: it raises its code where its condition holds, else the tests after it decide. -/
theorem Reports.test {opc : Byte} {s : State} {o : StepOutcome} {p : FaultCode → Bool} {codes : List FaultCode} {P : Prop}
    [Decidable P] (code : FaultCode) (hp : p code = true ↔ P) (h : p code = false → Reports opc s o (codes.find? p)) :
    Reports opc s (if P then raise code opc s else o) ((code :: codes).find? p) := by
  cases hc : p code with
  | true =>
    rw [find?_cons_eq_ite, if_pos hc, if_pos (hp.1 hc)]
    rfl
  | false =>
    have hne : ¬p code = true := Bool.eq_false_iff.1 hc
    rw [find?_cons_eq_ite, if_neg hne, if_neg (mt hp.2 hne)]
    exact h hc

theorem execPkcs5PadLen_reports (s : State) :
    Reports 0x10 s (execPkcs5PadLen s) (firstCondition .pkcs5PadLen s) :=
  .test .blockSize .rfl fun _ => .test .overflow .rfl fun _ => .of_next

theorem execPkcs5Pad_reports (s : State) : Reports 0x11 s (execPkcs5Pad s) (firstCondition .pkcs5Pad s) :=
  .test .nullPtr .rfl fun _ => .test .blockSize .rfl fun _ => .test .overflow .rfl fun _ => .test .bounds .rfl fun _ =>
    .of_next

theorem execPkcs5UnpadLen_reports (s : State) :
    Reports 0x12 s (execPkcs5UnpadLen s) (firstCondition .pkcs5UnpadLen s) :=
  .test .nullPtr .rfl fun _ => .test .length .rfl fun _ => .test .bounds .rfl fun _ =>
    .test .padValue decide_eq_true_iff fun _ => .of_next

theorem execPkcs5ChkLen_reports (s : State) : Reports 0x13 s (execPkcs5ChkLen s) (firstCondition .pkcs5ChkLen s) :=
  .test .blockSize .rfl fun _ => .of_next

theorem execRc4Init_reports (s : State) : Reports 0x20 s (execRc4Init s) (firstCondition .rc4Init s) :=
  .test .nullPtr .rfl fun _ => .test .keyLen .rfl fun _ => .test .bounds .rfl fun _ => .of_next

/-- RC4.ENC and RC4.DEC test the context, then the buffer (41 R173, R175). -/
theorem rc4Command_reports (opc : Byte) {s : State} {p : FaultCode → Bool} (hu : p .uninit = !s.rc4Init)
    (h0 : p .nullPtr = isNull s.a0) (hr : p .bounds = !s.inRange s.a0 s.a1.toNat) :
    Reports opc s (rc4Command opc s) ([.uninit, .nullPtr, .bounds].find? p) := by
  unfold rc4Command
  split
  · next hc =>
    rw [List.find?_cons_of_pos (by simp [hu, State.rc4Init, hc])]
    rfl
  · next c hc =>
    rw [List.find?_cons_of_neg (by simp [hu, State.rc4Init, hc])]
    exact .test .nullPtr (by rw [h0]) fun _ => .test .bounds (by rw [hr]) fun _ => .of_next

/-- The buffers of a block command are tested in the order of the codes. -/
theorem State.blockFault_eq_find? (n : Nat) (s : State) :
    s.blockFault n = [.nullPtr, .length, .bounds, .overlap].find? (blockCondition n s) := by
  simp only [find?_cons_eq_ite]
  rfl

theorem ivMissing_eq_isNone_startChain {s : State} {c : AesContext} (hc : s.aes = some c) :
    ivMissing s = c.startChain.isNone := by
  have hmissing : ivMissing s = (c.mode == .cbc && c.iv.isNone) := by simp only [ivMissing, hc]
  rw [hmissing]
  cases hm : c.mode with
  | ecb =>
    rw [AesContext.startChain_ecb hm]
    rfl
  | cbc =>
    cases hi : c.iv with
    | none =>
      rw [AesContext.startChain_noIv hm hi]
      rfl
    | some iv =>
      rw [AesContext.startChain_cbc hm hi]
      rfl

/-- AES.ENC and AES.DEC test the context, then the buffers, then the IV (43 R216, R217). -/
theorem aesCommand_reports (opc : Byte) (blocks : AesContext → Option Block → Memory → Nat → Nat → Nat → Memory) {s : State}
    {p : FaultCode → Bool} (hu : p .uninit = !s.aesInit)
    (hb : [.nullPtr, .length, .bounds, .overlap].find? p = s.blockFault 16) (hiv : p .noIv = ivMissing s) :
    Reports opc s (aesCommand opc blocks s) ([.uninit, .nullPtr, .length, .bounds, .overlap, .noIv].find? p) := by
  unfold aesCommand
  split
  · next hc =>
    rw [List.find?_cons_of_pos (by simp [hu, State.aesInit_eq_isSome, hc])]
    rfl
  · next c hc =>
    rw [List.find?_cons_of_neg (by simp [hu, State.aesInit_eq_isSome, hc])]
    have hcodes : [.nullPtr, .length, .bounds, .overlap, .noIv].find? p = (s.blockFault 16).or ([.noIv].find? p) := by
      rw [← hb, ← List.find?_append]
      rfl
    rw [hcodes, List.find?_singleton, hiv, ivMissing_eq_isNone_startChain hc]
    split
    · next code hcode =>
      rw [hcode]
      rfl
    · next hnone =>
      rw [hnone]
      split
      · next hch =>
        rw [hch]
        rfl
      · next chain hch =>
        rw [hch]
        exact .of_next

/-- BF.ENC and BF.DEC test the context, then the buffers (44 R251, R252). -/
theorem bfCommand_reports (opc : Byte) (f : BfContext → Word × Word → Word × Word) {s : State} {p : FaultCode → Bool}
    (hu : p .uninit = !s.bfInit) (hb : [.nullPtr, .length, .bounds, .overlap].find? p = s.blockFault 8) :
    Reports opc s (bfCommand opc f s) ([.uninit, .nullPtr, .length, .bounds, .overlap].find? p) := by
  unfold bfCommand
  split
  · next hc =>
    rw [List.find?_cons_of_pos (by simp [hu, State.bfInit, hc])]
    rfl
  · next c hc =>
    rw [List.find?_cons_of_neg (by simp [hu, State.bfInit, hc]), hb]
    split
    · next code hcode =>
      rw [hcode]
      rfl
    · next hnone =>
      rw [hnone]
      exact .of_next

/-- AES.INIT fails recoverably before it tests the ranges, its one fault (42 R190). -/
theorem execAesInit_reports (mode : ModeField) (s : State) :
    Reports 0x30 s (execAesInit mode s) (firstCondition (.aesInit mode) s) := by
  change Reports 0x30 s (exec (.aesInit mode) s) ([.bounds].find? (faultCondition (.aesInit mode) s))
  rw [List.find?_singleton]
  cases hr : aesInitRefused mode s with
  | true =>
    rw [exec_aesInit_fails hr, if_neg (by simp [faultCondition, hr])]
    exact .of_next
  | false =>
    obtain ⟨m, nr, hm, hn, h1⟩ := aesInit_operands_of_not_refused hr
    by_cases hout : s.params.memSize < s.a1.toNat + s.a2.toNat ∨ (s.a0 ≠ 0 ∧ s.params.memSize < s.a0.toNat + 16)
    · rw [if_pos (by simpa [faultCondition, hr] using hout)]
      exact exec_aesInit_bounds hm hn h1 hout
    · rw [exec_aesInit_done hm hn h1 hout, if_neg (by simpa [faultCondition, hr] using hout)]
      exact .of_next

/-- BF.INIT fails recoverably after the null test and before the range test (44 R247). -/
theorem execBfInit_reports (s : State) : Reports 0x40 s (execBfInit s) (firstCondition .bfInit s) := by
  refine .test .nullPtr .rfl fun _ => ?_
  split
  · next hl =>
    have hrefused : bfInitRefused s = true := hl
    rw [List.find?_singleton, if_neg (by simp [faultCondition, hrefused])]
    exact .of_next
  · next hl =>
    have hrefused : bfInitRefused s = false := Bool.eq_false_iff.2 hl
    exact .test .bounds (by simp [faultCondition, hrefused]) fun _ => .of_next

/-- Every command reports the first of its conditions that holds (60 R275). -/
theorem exec_reports (i : Instr) (s : State) : Reports (opcOf i) s (exec i s) (firstCondition i s) :=
  match i with
  | .pkcs5PadLen => execPkcs5PadLen_reports s
  | .pkcs5Pad => execPkcs5Pad_reports s
  | .pkcs5UnpadLen => execPkcs5UnpadLen_reports s
  | .pkcs5ChkLen => execPkcs5ChkLen_reports s
  | .rc4Init => execRc4Init_reports s
  | .rc4Enc => rc4Command_reports 0x21 rfl rfl rfl
  | .rc4Dec => rc4Command_reports 0x22 rfl rfl rfl
  | .aesInit mode => execAesInit_reports mode s
  | .aesEnc => aesCommand_reports 0x31 aesEncMem rfl (s.blockFault_eq_find? 16).symm rfl
  | .aesDec => aesCommand_reports 0x32 aesDecMem rfl (s.blockFault_eq_find? 16).symm rfl
  | .aesIsInit => .of_next
  | .bfInit => execBfInit_reports s
  | .bfEnc => bfCommand_reports 0x41 bfEncryptBlock rfl (s.blockFault_eq_find? 8).symm
  | .bfDec => bfCommand_reports 0x42 bfDecryptBlock rfl (s.blockFault_eq_find? 8).symm

theorem exec_completes_of_firstCondition_none {i : Instr} {s : State} (h : firstCondition i s = none) :
    ∃ t, exec i s = .next t ∧ t.fault = s.fault ∧ t.err = s.err ∧ t.fopc = s.fopc := by
  have hreports := exec_reports i s
  rwa [h] at hreports

theorem exec_raises_of_firstCondition_some {i : Instr} {s : State} {code : FaultCode} (h : firstCondition i s = some code) :
    exec i s = raise code (opcOf i) s := by
  have hreports := exec_reports i s
  rwa [h] at hreports

/-- The code in ERR tells which condition came first. -/
theorem faultsWith_iff_firstCondition {i : Instr} {s : State} {code : FaultCode} (hs : s.fault = false) :
    FaultsWith i s code.byte (opcOf i) ↔ firstCondition i s = some code := by
  refine ⟨fun hfault => ?_, exec_raises_of_firstCondition_some⟩
  cases hfirst : firstCondition i s with
  | none =>
    obtain ⟨t, ht, hclean, -⟩ := exec_completes_of_firstCondition_none hfirst
    cases ht.symm.trans hfault
    simp [hs] at hclean
  | some d =>
    have hstate := Host.Outcome.next.inj ((exec_raises_of_firstCondition_some hfirst).symm.trans hfault)
    rw [FaultCode.byte_injective (congrArg State.err hstate)]

end Sys2Proof.Machine

namespace Sys2Proof.Proofs

open Sys2Proof Sys2Proof.Machine

/-- Settles O15: a command reports the first condition that holds in test order, and the test order is the order of the codes. -/
theorem lowestFaultCodeWins : Obligations.LowestFaultCodeWins := by
  unfold Obligations.LowestFaultCodeWins
  refine ⟨fun i s code hs => (faultsWith_iff_firstCondition hs).trans (firstCondition_eq_some_iff i s code),
    fun i s hs hnone => ?_⟩
  obtain ⟨t, ht, hfault, hrecord⟩ := exec_completes_of_firstCondition_none ((firstCondition_eq_none_iff i s).2 hnone)
  exact ⟨t, ht, hfault.trans hs, hrecord⟩

end Sys2Proof.Proofs

/-! SUPPORT. The reset event as a step (spec/70 R300, R301), and a unit without INIT (spec/70 R305): a cleared flag is an absent
context, and an INIT that answers 0 leaves the context absent. -/

namespace Sys2Proof.Machine

open Sys2Proof

/-- The step of the reset event (70 R300): the parameters, MEM and the host's further actions stay, the rest is reset. -/
theorem step_reset {s : State} {rest : List HostAction} (h : s.host = .reset :: rest) :
    step s = .next (State.afterReset s.params s.mem rest) :=
  step_of_host h

theorem State.aesInit_eq_false_iff (s : State) : s.aesInit = false ↔ s.aes = none := by
  rw [s.aesInit_eq_isSome, Option.isSome_eq_false_iff, Option.isNone_iff_eq_none]

theorem State.bfInit_eq_false_iff (s : State) : s.bfInit = false ↔ s.bf = none := by
  rw [State.bfInit, Option.isSome_eq_false_iff, Option.isNone_iff_eq_none]

/-- AES.INIT completes with `RES = 1` or fails recoverably (42 R190), which removes the context. -/
theorem Completes.aesInit_eq_false {mode : ModeField} {s t : State} (h : Completes (.aesInit mode) s t) (ht : t.res = 0) :
    t.aesInit = false := by
  cases h with
  | aesInit => cases ht
  | aesInitFails => rfl

/-- BF.INIT completes with `RES = 1` or fails recoverably (44 R247), which removes the context. -/
theorem Completes.bfInit_eq_false {s t : State} (h : Completes .bfInit s t) (ht : t.res = 0) : t.bfInit = false := by
  cases h with
  | bfInit => cases ht
  | bfInitFails => rfl

end Sys2Proof.Machine

namespace Sys2Proof.Proofs

open Sys2Proof Sys2Proof.Machine

/-- Settles O2: the step lands in `State.afterReset`; of the steps from FAULT = 1 the others keep FAULT. -/
theorem resetEventKeepsMemory : Obligations.ResetEventKeepsMemory := by
  unfold Obligations.ResetEventKeepsMemory
  refine ⟨fun s rest h => ⟨State.afterReset s.params s.mem rest, step_reset h, ?_⟩, fun s t hs h ht => ?_⟩
  · exact ⟨rfl, rfl, rfl, rfl, rfl, rfl, rfl, rfl, rfl, rfl, rfl, rfl, rfl, rfl, State.afterReset_status _ _ _, rfl, rfl, rfl⟩
  · refine (step_keeps_record_or_reset hs h).resolve_left fun ⟨hfault, _, _⟩ => ?_
    simp [ht] at hfault

/-- Settles O48: ENC and DEC test for the context first, before any operand; an INIT that answers 0 has removed it. -/
theorem uninitializedUnitsFault : Obligations.UninitializedUnitsFault := by
  unfold Obligations.UninitializedUnitsFault
  refine ⟨fun s h => ⟨rc4Command_uninit 0x21 h, rc4Command_uninit 0x22 h⟩, fun s h => ?_, fun s h => ?_,
    fun s t mode _ h ht hres => (exec_completes h ht).aesInit_eq_false hres,
    fun s t _ h ht hres => (exec_completes h ht).bfInit_eq_false hres⟩
  · have hnone := s.aesInit_eq_false_iff.1 h
    exact ⟨aesCommand_uninit hnone, aesCommand_uninit hnone⟩
  · have hnone := s.bfInit_eq_false_iff.1 h
    exact ⟨bfCommand_uninit hnone, bfCommand_uninit hnone⟩

end Sys2Proof.Proofs

/-! SUPPORT. What a command that completes leaves unchanged, field by field, and what it keeps of the state's invariant. -/

namespace Sys2Proof.Machine

open Sys2Proof

/-! The frame of a completing command (spec/10 R21, R22, R26; spec/20 R99). -/

theorem Completes.operands_eq {i : Instr} {s t : State} (h : Completes i s t) :
    t.a0 = s.a0 ∧ t.a1 = s.a1 ∧ t.a2 = s.a2 ∧ t.params = s.params := by
  cases h <;> exact ⟨rfl, rfl, rfl, rfl⟩

theorem Completes.record_eq {i : Instr} {s t : State} (h : Completes i s t) :
    t.fault = s.fault ∧ t.err = s.err ∧ t.fopc = s.fopc := by
  cases h <;> exact ⟨rfl, rfl, rfl⟩

/-! The memory stays canonical and inside MEM_SIZE: the checks of the commands keep their writes inside. -/

theorem padBytes_wf {m : Memory} (h : m.wf = true) (data length p : Nat) : (padBytes m data length p).wf = true :=
  Memory.wf_writeBytes h _ _

theorem padBytes_below {m : Memory} {size data length p : Nat} (h : m.below size = true) (hlength : length ≤ p)
    (hp : data + p ≤ size) : (padBytes m data length p).below size = true :=
  Memory.below_writeBytes h _ (by rw [List.length_replicate]; omega)

/-- The blocks of a block command that passes its checks lie inside MEM (20 R95). -/
theorem State.blocks_inside {n : Nat} {s : State} (hb : s.blockFault n = none) :
    s.a0.toNat + n * (s.a2.toNat / n) ≤ s.params.memSize := by
  obtain ⟨-, -, -, -, hd, -, -⟩ := (s.blockFault_eq_none n).1 hb
  have hle := Nat.mul_div_le s.a2.toNat n
  omega

theorem Completes.mem_wf {i : Instr} {s t : State} (h : Completes i s t) (hs : s.mem.wf = true) : t.mem.wf = true := by
  cases h with
  | pad => exact padBytes_wf hs _ _ _
  | rc4Enc | rc4Dec => exact rc4Crypt_wf _ _ _ hs
  | aesEnc => exact aesEncMem_wf _ _ _ _ _ hs
  | aesDec => exact aesDecMem_wf _ _ _ _ _ hs
  | bfEnc | bfDec => exact bfMem_wf _ _ _ _ hs
  | _ => exact hs

theorem Completes.mem_below {i : Instr} {s t : State} (h : Completes i s t) (hs : s.mem.below s.params.memSize = true) :
    t.mem.below s.params.memSize = true := by
  cases h with
  | pad h0 hb hp hr => exact padBytes_below hs (padLen_bounds _ hb.1).1.le hr
  | rc4Enc hc h0 hr | rc4Dec hc h0 hr => exact rc4Crypt_below _ _ _ hs hr
  | aesEnc hc hb => exact aesEncMem_below _ _ _ _ _ hs (State.blocks_inside hb)
  | aesDec hc hb => exact aesDecMem_below _ _ _ _ _ hs (State.blocks_inside hb)
  | bfEnc hc hb | bfDec hc hb => exact bfMem_below _ _ _ _ hs (State.blocks_inside hb)
  | _ => exact hs

/-! The contexts stay what INIT made them (10 R29, 42 R190, 44 R247). -/

theorem ksaRun_injective (key : Nat → Byte) (length n : Nat) : Function.Injective (entry (ksaRun key length n).1) := by
  induction n with
  | zero => exact identityCells_injective
  | succ n ih => exact swapCells_injective ih _ _

theorem prgaRun_permutation {c : Rc4Context} (h : c.Permutation) (n : Nat) : (prgaRun c n).Permutation := by
  induction n with
  | zero => exact h
  | succ n ih => exact swapCells_injective ih _ _

theorem rc4Start_permutation {p : Params} {c : Rc4Context} (h : c.Permutation) : (rc4Start p c).Permutation := by
  rwa [Rc4Context.Permutation, rc4Start_s]

theorem rc4Crypt_permutation {c : Rc4Context} (h : c.Permutation) (p : Params) (m : Memory) (d n : Nat) :
    (rc4Crypt (rc4Start p c) m d n).1.Permutation := by
  rw [rc4Crypt_context_eq_prgaRun]
  exact prgaRun_permutation (rc4Start_permutation h) n

theorem Completes.rc4_permutation {i : Instr} {s t : State} (h : Completes i s t)
    (hs : ∀ c, s.rc4 = some c → c.Permutation) : ∀ c, t.rc4 = some c → c.Permutation := by
  cases h with
  | rc4Init => exact fun c hc => Option.some.inj hc ▸ ksaRun_injective _ _ 256
  | rc4Enc hc | rc4Dec hc => exact fun c hc' => Option.some.inj hc' ▸ rc4Crypt_permutation (hs _ hc) _ _ _ _
  | _ => exact hs

theorem aesContext_scheduled (m : Memory) (iv key : Word) (nr : AesRounds) (mode : AesMode) :
    (aesContext m iv key nr mode).Scheduled :=
  ⟨⟨keyWords m key.toNat nr.nk, rfl⟩, rfl⟩

theorem Completes.aes_scheduled {i : Instr} {s t : State} (h : Completes i s t)
    (hs : ∀ c, s.aes = some c → c.Scheduled) : ∀ c, t.aes = some c → c.Scheduled := by
  cases h with
  | aesInit => exact fun c hc => Option.some.inj hc ▸ aesContext_scheduled _ _ _ _ _
  | aesInitFails => nofun
  | _ => exact hs

theorem Completes.bf_scheduled {i : Instr} {s t : State} (h : Completes i s t)
    (hs : ∀ c, s.bf = some c → c.Scheduled) : ∀ c, t.bf = some c → c.Scheduled := by
  cases h with
  | bfInit h0 h1 hl => exact fun c hc => ⟨_, s.a1.toNat, toNat_pos_of_ne_zero h1, hl, (Option.some.inj hc).symm⟩
  | bfInitFails => nofun
  | _ => exact hs

/-! The invariant, move by move. -/

/-- The invariant looks at no host register and not at the host's queue. -/
theorem State.Inv.of_registers {s : State} (hs : s.Inv) (a0 a1 a2 : Word) (host : List HostAction) :
    State.Inv { s with a0 := a0, a1 := a1, a2 := a2, host := host } :=
  ⟨hs.memCanonical, hs.memBelow, hs.paramsWf, hs.noRecord, hs.record, hs.rc4Permutation, hs.aesScheduled, hs.bfScheduled⟩

theorem State.Inv.setMem {s : State} (hs : s.Inv) {m : Memory} (hw : m.wf = true)
    (hb : m.below s.params.memSize = true) : (s.setMem m).Inv :=
  ⟨hw, hb, hs.paramsWf, hs.noRecord, hs.record, hs.rc4Permutation, hs.aesScheduled, hs.bfScheduled⟩

theorem State.Inv.enterFault {s : State} (hs : s.Inv) (code : FaultCode) (opc : Byte) : (s.enterFault code opc).Inv :=
  ⟨hs.memCanonical, hs.memBelow, hs.paramsWf, nofun, fun _ => ⟨code, rfl⟩, hs.rc4Permutation, hs.aesScheduled,
    hs.bfScheduled⟩

theorem State.inv_afterReset {p : Params} {m : Memory} (hp : p.Wf) (hw : m.wf = true) (hb : m.below p.memSize = true)
    (host : List HostAction) : (State.afterReset p m host).Inv :=
  ⟨hw, hb, hp, fun _ => ⟨rfl, rfl⟩, nofun, nofun, nofun, nofun⟩

theorem Completes.inv {i : Instr} {s t : State} (h : Completes i s t) (hs : s.Inv) : t.Inv := by
  obtain ⟨-, -, -, hparams⟩ := h.operands_eq
  obtain ⟨hfault, herr, hfopc⟩ := h.record_eq
  exact ⟨h.mem_wf hs.memCanonical, hparams ▸ h.mem_below hs.memBelow, hparams ▸ hs.paramsWf,
    by rw [hfault, herr, hfopc]; exact hs.noRecord, by rw [hfault, herr]; exact hs.record,
    h.rc4_permutation hs.rc4Permutation, h.aes_scheduled hs.aesScheduled, h.bf_scheduled hs.bfScheduled⟩

theorem exec_inv {i : Instr} {s t : State} (hs : s.Inv) (h : exec i s = .next t) : t.Inv := by
  obtain ⟨code, rfl⟩ | hc := exec_next_cases h
  · exact hs.enterFault code _
  · exact hc.inv hs

theorem submit_inv {w : Word} {s t : State} (hs : s.Inv) (h : submit w s = .next t) : t.Inv := by
  obtain ⟨-, hidle⟩ | ⟨i, -, -, hexec⟩ | ⟨e, -, -, hraise⟩ := submit_cases w s
  · cases hidle.symm.trans h
    exact hs
  · exact exec_inv hs (hexec.symm.trans h)
  · cases hraise.symm.trans h
    exact hs.enterFault .illegalCmd _

theorem step_inv {s t : State} (hs : s.Inv) (h : step s = .next t) : t.Inv := by
  obtain ⟨-, rfl⟩ | ⟨rest, -, rfl⟩ | ⟨a, v, rest, -, ha, rfl⟩ | ⟨n, v, rest, -, -, rfl⟩ | ⟨w, rest, -, hw⟩ := step_cases h
  · exact hs
  · exact State.inv_afterReset hs.paramsWf hs.memCanonical hs.memBelow rest
  · exact (hs.of_registers s.a0 s.a1 s.a2 rest).setMem (Memory.wf_write hs.memCanonical a v)
      (Memory.below_write hs.memBelow ha v)
  · exact hs.of_registers _ _ _ rest
  · exact submit_inv (hs.of_registers s.a0 s.a1 s.a2 rest) hw

end Sys2Proof.Machine

namespace Sys2Proof.Proofs

open Sys2Proof Sys2Proof.Machine

/-- Settles O9: the fields of the encoding are the command's own, and the decoder looks at nothing but the fields. -/
theorem decodeAcceptsExactlyEncodings : Obligations.DecodeAcceptsExactlyEncodings := by
  unfold Obligations.DecodeAcceptsExactlyEncodings
  exact decode_eq_ok_iff

/-- Settles O21: each of the host's moves keeps the invariant; a command because fault entry and every way to complete do. -/
theorem everyStepKeepsTheInvariant : Obligations.EveryStepKeepsTheInvariant := by
  unfold Obligations.EveryStepKeepsTheInvariant
  exact fun s t hs h => step_inv hs h

/-- Settles O22: no context is present after reset and no fault recorded; the rest is what the premises say. -/
theorem invariantHoldsAfterReset : Obligations.InvariantHoldsAfterReset := by
  unfold Obligations.InvariantHoldsAfterReset
  exact ⟨fun p m host hp hw hb => State.inv_afterReset hp hw hb host,
    State.inv_afterReset (by decide) rfl rfl []⟩

/-- Settles O11: the accepted words are encodings; each refused word fails one test of 30 R121. -/
theorem decoderReadsWrittenWords : Obligations.DecoderReadsWrittenWords := by
  unfold Obligations.DecoderReadsWrittenWords
  have hencoded (i : Instr) : decode (encode i) = .ok i := (decode_eq_ok_iff _ i).2 rfl
  exact ⟨hencoded .pkcs5PadLen, hencoded .rc4Dec, hencoded (.aesInit .ecb), hencoded (.aesInit .cbc),
    hencoded (.aesInit .reserved), hencoded .bfEnc, rfl, rfl, rfl⟩

/-- Settles O17: a command faults by fault entry or completes, and neither writes a register of the host. -/
theorem operandsNeverWritten : Obligations.OperandsNeverWritten := by
  unfold Obligations.OperandsNeverWritten
  intro i s t h
  obtain ⟨code, rfl⟩ | hc := exec_next_cases h
  · exact ⟨rfl, rfl, rfl, rfl, rfl⟩
  · obtain ⟨h0, h1, h2, hparams⟩ := hc.operands_eq
    exact ⟨h0, h1, h2, hparams, hc.host_eq⟩

end Sys2Proof.Proofs

/-! SUPPORT. The host's moves as steps: which of them stop, what a step of a command is, and that only the commands of a unit
change its context (spec/10 R26, R31, R32; spec/20 R90). -/

namespace Sys2Proof.Machine

open Sys2Proof

/-! Where a step stops: only at a host write outside MEM. -/

theorem exec_next (i : Instr) (s : State) : ∃ t, exec i s = .next t := by
  obtain ⟨code, hraise⟩ | ⟨t, ht, -⟩ := exec_ends i s
  · exact ⟨_, hraise⟩
  · exact ⟨t, ht⟩

theorem submit_next (w : Word) (s : State) : ∃ t, submit w s = .next t := by
  obtain ⟨-, hidle⟩ | ⟨i, -, -, hexec⟩ | ⟨e, -, -, hraise⟩ := submit_cases w s
  · exact ⟨s, hidle⟩
  · exact hexec ▸ exec_next i s
  · exact ⟨_, hraise⟩

theorem hostWriteReg_next (n : Nat) (v : Word) (s : State) : ∃ t, hostWriteReg n v s = .next t :=
  match n with
  | 0 => submit_next v s
  | 1 | 2 | 3 | _ + 4 => ⟨_, rfl⟩

theorem step_writeMem_of_le {s : State} {a : Nat} {v : Byte} {rest : List HostAction} (ha : s.params.memSize ≤ a)
    (h : s.host = .writeMem a v :: rest) : step s = .fault .hostAddressOutsideMem :=
  (step_of_host h).trans (if_neg ha.not_gt)

theorem step_of_host_nil {s : State} (h : s.host = []) : step s = .next s := by
  simp only [step, hostNext, h, done]

/-! A command run by a step. -/

theorem step_of_decode_ok {s : State} {w : Word} {rest : List HostAction} {i : Instr} (hs : s.fault = false)
    (h : s.host = .writeReg 0 w :: rest) (hd : decode w = .ok i) : step s = exec i { s with host := rest } :=
  (step_of_host h).trans (submit_of_decode_ok (s := { s with host := rest }) hs hd)

theorem decode_of_decodeTableWord {nbits w : Nat} {i : Instr} (h : decodeTableWord nbits w = some i) :
    decode (BitVec.ofNat 32 (w % 2 ^ nbits)) = .ok i := by
  unfold decodeTableWord at h
  split at h
  · next j hj => rwa [Option.some.inj h] at hj
  · cases h

/-! Who changes a context. -/

theorem Completes.aes_eq {i : Instr} {s t : State} (h : Completes i s t) (hi : ∀ mode, i ≠ .aesInit mode) :
    t.aes = s.aes := by
  cases h with
  | aesInit | aesInitFails => exact absurd rfl (hi _)
  | _ => rfl

theorem Completes.bf_eq {i : Instr} {s t : State} (h : Completes i s t) (hi : i ≠ .bfInit) : t.bf = s.bf := by
  cases h with
  | bfInit | bfInitFails => exact absurd rfl hi
  | _ => rfl

theorem Completes.rc4_eq {i : Instr} {s t : State} (h : Completes i s t) (hi : ¬ (i = .rc4Init ∨ i = .rc4Enc ∨ i = .rc4Dec)) :
    t.rc4 = s.rc4 := by
  cases h with
  | rc4Init | rc4Enc | rc4Dec => simp at hi
  | _ => rfl

/-- A step keeps the three contexts unless it is the reset event or runs a command that completes. -/
theorem step_keeps_contexts_or {s t : State} (h : step s = .next t) :
    (t.aes = s.aes ∧ t.bf = s.bf ∧ t.rc4 = s.rc4) ∨ (∃ rest, s.host = .reset :: rest) ∨
      ∃ w rest i, s.host = .writeReg 0 w :: rest ∧ s.fault = false ∧ decode w = .ok i ∧
        Completes i { s with host := rest } t := by
  obtain ⟨-, rfl⟩ | ⟨rest, hreset, -⟩ | ⟨a, v, rest, -, -, rfl⟩ | ⟨n, v, rest, -, -, rfl⟩ | ⟨w, rest, hcmd, hw⟩ :=
    step_cases h
  · exact .inl ⟨rfl, rfl, rfl⟩
  · exact .inr (.inl ⟨rest, hreset⟩)
  · exact .inl ⟨rfl, rfl, rfl⟩
  · exact .inl ⟨rfl, rfl, rfl⟩
  · obtain ⟨-, hidle⟩ | ⟨i, hs, hd, hexec⟩ | ⟨e, -, -, hraise⟩ := submit_cases w { s with host := rest }
    · cases hidle.symm.trans hw
      exact .inl ⟨rfl, rfl, rfl⟩
    · obtain ⟨code, rfl⟩ | hc := exec_next_cases (hexec.symm.trans hw)
      · exact .inl ⟨rfl, rfl, rfl⟩
      · exact .inr (.inr ⟨w, rest, i, hcmd, hs, hd, hc⟩)
    · cases hraise.symm.trans hw
      exact .inl ⟨rfl, rfl, rfl⟩

end Sys2Proof.Machine

namespace Sys2Proof.Proofs

open Sys2Proof Sys2Proof.Machine

/-- Settles O13: of the host's moves only the write of a byte of MEM can stop, and it does so where the byte does not exist. -/
theorem stepStopsOnlyOutsideMemory : Obligations.StepStopsOnlyOutsideMemory := by
  unfold Obligations.StepStopsOnlyOutsideMemory
  refine ⟨fun s => ?_, fun s a v rest h ha => step_writeMem_of_le ha h⟩
  rcases hhost : s.host with _ | ⟨⟨n, v⟩ | ⟨a, v⟩ | _, rest⟩
  · exact .inl ⟨s, step_of_host_nil hhost⟩
  · exact .inl (step_of_host hhost ▸ hostWriteReg_next n v _)
  · by_cases ha : a < s.params.memSize
    · exact .inl ⟨_, step_writeMem_of_lt ha hhost⟩
    · exact .inr ⟨a, v, rest, rfl, not_lt.1 ha, step_writeMem_of_le (not_lt.1 ha) hhost⟩
  · exact .inl ⟨_, step_reset hhost⟩

/-- Settles O20: a context changes by the reset event or by a command that completes, and of those only by its unit's. -/
theorem contextsChangedOnlyByTheirCommands : Obligations.ContextsChangedOnlyByTheirCommands := by
  unfold Obligations.ContextsChangedOnlyByTheirCommands
  intro s t h
  obtain ⟨haes, hbf, hrc4⟩ | hreset | ⟨w, rest, i, hcmd, hs, hd, hc⟩ := step_keeps_contexts_or h
  · exact ⟨fun hne => absurd haes hne, fun hne => absurd hbf hne, fun hne => absurd hrc4 hne⟩
  · exact ⟨fun _ => .inl hreset, fun _ => .inl hreset, fun _ => .inl hreset⟩
  · refine ⟨fun hne => .inr ?_, fun hne => .inr ?_, fun hne => .inr ?_⟩
    · obtain ⟨mode, rfl⟩ : ∃ mode, i = .aesInit mode := by_contra fun hi => hne (hc.aes_eq (not_exists.1 hi))
      exact ⟨w, rest, mode, hcmd, hs, hd⟩
    · obtain rfl : i = .bfInit := by_contra fun hi => hne (hc.bf_eq hi)
      exact ⟨w, rest, hcmd, hs, hd⟩
    · exact ⟨w, rest, i, hcmd, hs, hd, by_contra fun hi => hne (hc.rc4_eq hi)⟩

/-- Settles O6: a read after the write by the laws of memory; a read of the host and an idle step by definition. -/
theorem hostMemoryWritesAndIdle : Obligations.HostMemoryWritesAndIdle := by
  unfold Obligations.HostMemoryWritesAndIdle
  exact ⟨fun s a v rest h ha => ⟨s.mem.write a v, step_writeMem_of_lt ha h, s.mem.read_write_self a v,
    fun c hc => s.mem.read_write_other v hc⟩, fun s a => rfl, fun s h => step_of_host_nil h⟩

/-- Settles O7: a word that decodes is executed while FAULT = 0; withFetchWord puts its word first in the queue. -/
theorem stepRunsDecodedCommand : Obligations.StepRunsDecodedCommand := by
  unfold Obligations.StepRunsDecodedCommand
  exact ⟨fun s w rest i hs h hd => step_of_decode_ok hs h hd, fun s nbits w i hs hd =>
    step_of_decode_ok (s := s.withFetchWord nbits w) (rest := s.host) hs rfl (decode_of_decodeTableWord hd)⟩

end Sys2Proof.Proofs

/-! SUPPORT. The fault codes of each command (spec/60 R276), and the bytes of MEM a command writes (spec/20 R99). -/

namespace Sys2Proof.Machine

open Sys2Proof

/-- The code in ERR after a fault is one the command can raise. -/
theorem exec_fault_err_mem {i : Instr} {s t : State} (hs : s.fault = false) (h : exec i s = .next t) (ht : t.fault = true) :
    t.err ∈ (raisableCodes i).map FaultCode.byte := by
  obtain ⟨code, rfl⟩ := exec_enterFault hs h ht
  obtain ⟨hcond, -⟩ := (firstCondition_eq_some_iff i s code).1 ((faultsWith_iff_firstCondition hs).1 h)
  exact List.mem_map_of_mem (mem_raisableCodes hcond)

/-- The bytes outside the range of a completing command read as before. -/
theorem Completes.read_outside {i : Instr} {s t : State} (h : Completes i s t) {a : Nat}
    (ha : ¬ InBytes (writtenRange i s) a) : t.mem.read a = s.mem.read a := by
  have hout : a < (writtenRange i s).1 ∨ (writtenRange i s).1 + (writtenRange i s).2 ≤ a := by
    rwa [not_and_or, not_le, not_lt] at ha
  cases h with
  | pad => exact (padBytes_read _ _ _ _ a).trans (if_neg ha)
  | rc4Enc | rc4Dec => exact rc4Crypt_read_outside _ _ _ _ hout
  | aesEnc hc hb =>
    obtain ⟨hlen, -⟩ := ((s.blockFault_eq_none 16).1 hb).wholeBlocks_place
    exact aesEncMem_read_outside _ _ _ _ _ _ (hlen.symm ▸ hout)
  | aesDec hc hb =>
    obtain ⟨hlen, -⟩ := ((s.blockFault_eq_none 16).1 hb).wholeBlocks_place
    exact aesDecMem_read_outside _ _ _ _ _ _ (hlen.symm ▸ hout)
  | bfEnc hc hb | bfDec hc hb =>
    obtain ⟨hlen, -⟩ := ((s.blockFault_eq_none 8).1 hb).wholeBlocks_place
    exact bfMem_read_outside _ _ _ _ _ (hlen.symm ▸ hout)
  | _ => rfl

end Sys2Proof.Machine

namespace Sys2Proof.Proofs

open Sys2Proof Sys2Proof.Machine

/-- Settles O16: a command reports one of its own conditions, and the codes of these are the marks of its row. -/
theorem faultCodesOfEachCommand : Obligations.FaultCodesOfEachCommand := by
  unfold Obligations.FaultCodesOfEachCommand
  intro i s t hs h ht
  have hmem := exec_fault_err_mem hs h ht
  cases i with
  | aesIsInit => exact List.not_mem_nil hmem
  | _ => simpa [raisableCodes, FaultCode.byte] using hmem

/-- Settles O19: a command that completes leaves the bytes outside its range, and fault entry leaves them all. -/
theorem memoryWrittenOnlyInRange : Obligations.MemoryWrittenOnlyInRange := by
  unfold Obligations.MemoryWrittenOnlyInRange
  refine ⟨fun i s t a h ha => ?_, fun i s t hs h ht => ?_⟩
  · obtain ⟨code, rfl⟩ | hc := exec_next_cases h
    · rfl
    · exact hc.read_outside ha
  · obtain ⟨code, rfl⟩ := exec_enterFault hs h ht
    rfl

end Sys2Proof.Proofs

/-! SUPPORT. PKCS5 and RC4 run twice: unpadding what PAD padded (spec/40 R155), the keystream as one run over two buffers
(spec/41 R177 (c)), and decryption under the key of the encryption (R177 (a)). -/

namespace Sys2Proof.Machine

open Sys2Proof

/-! Padding: the last byte is the pad count. -/

theorem lastByte_padBytes {length p : Nat} (hlt : length < p) (m : Memory) (data : Nat) :
    lastByte (padBytes m data length p) data p = BitVec.ofNat 8 (p - length) := by
  rw [lastByte, padBytes_read_of_le hlt.le, if_pos (by omega)]

/-- UNPADLEN of a buffer whose last byte counts the bytes after the first `length`. -/
theorem exec_pkcs5UnpadLen_of_lastByte {s : State} {length p : Nat} (h0 : s.a0 ≠ 0) (hp : s.a1.toNat = p)
    (hr : s.a0.toNat + p ≤ s.params.memSize) (hlt : length < p) (hpad : p - length ≤ 255)
    (hlast : lastByte s.mem s.a0.toNat p = BitVec.ofNat 8 (p - length)) :
    exec .pkcs5UnpadLen s = .next (s.setRes (BitVec.ofNat 32 length)) := by
  subst hp
  have h1 : s.a1 ≠ 0 := fun h => by simp [h] at hlt
  have hv : (lastByte s.mem s.a0.toNat s.a1.toNat).toNat = s.a1.toNat - length := by
    rw [hlast, BitVec.toNat_ofNat, Nat.mod_eq_of_lt (by omega)]
  have hle : (lastByte s.mem s.a0.toNat s.a1.toNat).toNat ≤ s.a1.toNat := by omega
  rw [exec_pkcs5UnpadLen_done h0 h1 hr hle, sub_zeroExtend_eq_ofNat hle, hv, Nat.sub_sub_self hlt.le]

/-! The key schedule reads the key at the positions below 256 and below its length, and nowhere else. -/

/-- Two keys that give the same byte to every step give the same run. -/
theorem ksaRun_congr {key key' : Nat → Byte} {length length' n : Nat}
    (h : ∀ i, i < n → key (i % length) = key' (i % length')) : ksaRun key length n = ksaRun key' length' n := by
  induction n with
  | zero => rfl
  | succ n ih =>
    have hj : (ksaRun key length (n + 1)).2 = (ksaRun key' length' (n + 1)).2 := by
      rw [ksaRun_succ_j, ksaRun_succ_j, ih fun i hi => h i (by omega), h n (by omega)]
    refine Prod.ext ?_ hj
    rw [ksaRun_succ_s, ksaRun_succ_s, hj, ih fun i hi => h i (by omega)]

theorem ksa_congr {key key' : Nat → Byte} {length : Nat} (hpos : 0 < length)
    (h : ∀ k, k < length → key k = key' k) : ksa key length = ksa key' length :=
  congrArg Prod.fst (ksaRun_congr fun i _ => h _ (Nat.mod_lt i hpos))

theorem ksa_of_le {length : Nat} (h : 256 ≤ length) (key : Nat → Byte) : ksa key length = ksa key 256 :=
  congrArg Prod.fst (ksaRun_congr fun i hi => by rw [Nat.mod_eq_of_lt hi, Nat.mod_eq_of_lt (by omega)])

/-! The keystream. -/

/-- The loop over n bytes and then over the k bytes after them is the loop over all of them. -/
theorem rc4Crypt_add (c : Rc4Context) (m : Memory) (d n k : Nat) :
    rc4Crypt c m d (n + k) = rc4Crypt (rc4Crypt c m d n).1 (rc4Crypt c m d n).2 (d + n) k := by
  induction k with
  | zero => rfl
  | succ k ih => rw [← Nat.add_assoc, rc4Crypt_succ, ih, rc4Crypt_succ, rc4CryptByte, rc4CryptByte, Nat.add_assoc]

/-- The loop from the same context undoes itself: it xors the same keystream. -/
theorem rc4Crypt_rc4Crypt_read (c : Rc4Context) (m : Memory) (d n a : Nat) :
    (rc4Crypt c (rc4Crypt c m d n).2 d n).2.read a = m.read a := by
  by_cases ha : a < d ∨ d + n ≤ a
  · rw [rc4Crypt_read_outside _ _ _ _ ha, rc4Crypt_read_outside _ _ _ _ ha]
  · obtain ⟨k, rfl⟩ := Nat.exists_eq_add_of_le (show d ≤ a by omega)
    have hk : k < n := by omega
    rw [rc4Crypt_byte_eq_xor_prgaStep _ _ _ hk, rc4Crypt_byte_eq_xor_prgaStep _ _ _ hk, BitVec.xor_assoc,
      BitVec.xor_self, BitVec.xor_zero]

theorem rc4Start_of_persist {p : Params} (h : p.rc4IjPersist = true) (c : Rc4Context) : rc4Start p c = c := if_pos h

/-- A context right after RC4.INIT starts the loop as it is, whether or not the indices persist. -/
theorem rc4Start_of_zero (p : Params) (s : Vector Byte 256) : rc4Start p ⟨s, 0, 0⟩ = ⟨s, 0, 0⟩ := by
  unfold rc4Start
  split
  · rfl
  · rfl

/-- RC4.ENC or RC4.DEC where all checks pass, its state through the loop (41 R173, R175). -/
theorem exec_eq_next_rc4Crypt {i : Instr} (hi : i = .rc4Enc ∨ i = .rc4Dec) {s : State} {c : Rc4Context} (hc : s.rc4 = some c)
    (h0 : s.a0 ≠ 0) (hr : s.a0.toNat + s.a1.toNat ≤ s.params.memSize) :
    exec i s = .next { s with
      mem := (rc4Crypt (rc4Start s.params c) s.mem s.a0.toNat s.a1.toNat).2,
      rc4 := some (rc4Crypt (rc4Start s.params c) s.mem s.a0.toNat s.a1.toNat).1, res := s.a1 } := by
  rw [rc4Crypt_context_eq_prgaRun]
  obtain rfl | rfl := hi
  · exact rc4Command_done 0x21 hc h0 hr
  · exact rc4Command_done 0x22 hc h0 hr

end Sys2Proof.Machine

namespace Sys2Proof.Proofs

open Sys2Proof Sys2Proof.Machine

/-- Settles O27: the padded buffer passes the checks of UNPADLEN, and its last byte is the difference of the lengths. -/
theorem padThenUnpadReturnsLength : Obligations.PadThenUnpadReturnsLength := by
  unfold Obligations.PadThenUnpadReturnsLength
  intro s t h ht
  cases exec_completes h ht with
  | pad h0 hb hp hr =>
    obtain ⟨hlt, hle⟩ := padLen_bounds s.a1.toNat hb.1
    have hunpad := exec_pkcs5UnpadLen_of_lastByte (length := s.a1.toNat)
      (s := { s.setMem (padBytes s.mem s.a0.toNat s.a1.toNat (padLen s.a1.toNat s.a2.toNat)) with
        a1 := BitVec.ofNat 32 (padLen s.a1.toNat s.a2.toNat) })
      h0 (toNat_ofNat_padLen hp) hr hlt (by omega) (lastByte_padBytes hlt s.mem s.a0.toNat)
    rwa [BitVec.ofNat_toNat, BitVec.setWidth_eq] at hunpad

/-- Settles O30: a step below 256 reads the same key byte under both lengths. -/
theorem ksaUsesFirst256KeyBytes : Obligations.KsaUsesFirst256KeyBytes := by
  unfold Obligations.KsaUsesFirst256KeyBytes
  exact fun key len hlen => ksa_of_le hlen key

/-- Settles O32: the second command starts where the first one left the indices and the data. -/
theorem rc4StreamContinues : Obligations.Rc4StreamContinues := by
  unfold Obligations.Rc4StreamContinues
  intro s t u b m n hpersist h ht hb hn h' hu
  cases exec_completes h ht with
  | rc4Enc hc h0 hr =>
    cases exec_completes h' hu with
    | rc4Enc hc' h0' hr' =>
      have hstart := rc4Start_of_persist hpersist
      have hinside : s.a0.toNat + n.toNat ≤ s.params.memSize := by
        rw [hn, ← Nat.add_assoc, ← hb]
        exact hr'
      have hone := exec_eq_next_rc4Crypt (s := { s with a1 := n }) (.inl rfl) hc h0 hinside
      obtain rfl := Option.some.inj hc'
      simp only [hstart, hn, rc4Crypt_add] at hone
      simp only [hstart, hb]
      exact hone

/-- Settles O33: both keys are read from the same bytes, so the second loop xors the keystream of the first. -/
theorem rc4RoundTrip : Obligations.Rc4RoundTrip := by
  unfold Obligations.Rc4RoundTrip
  intro s s1 s2 d n h1 hf1 h2 hf2 hapart
  cases exec_completes h1 hf1 with
  | rc4Init h0 hlen hkey =>
    cases exec_completes h2 hf2 with
    | rc4Enc hc hd hdata =>
      obtain rfl := Option.some.inj hc
      have hsame := ksa_congr (toNat_pos_of_ne_zero hlen) fun k hk =>
        rc4Crypt_read_outside ⟨ksa (fun k => s.mem.read (s.a0.toNat + k)) s.a1.toNat, 0, 0⟩ s.mem d.toNat n.toNat
          (x := s.a0.toNat + k) (by omega)
      refine ⟨_, _, exec_rc4Init_done h0 hlen hkey, exec_eq_next_rc4Crypt (.inr rfl) rfl hd hdata, hf1, rfl, fun a => ?_⟩
      simp only [State.setRc4, rc4Start_of_zero, hsame]
      exact rc4Crypt_rc4Crypt_read _ _ _ _ a

end Sys2Proof.Proofs

/-! SUPPORT. The block commands run twice: bytes and blocks of two buffers (spec/43 R214, spec/44 R249), AES.DEC of what AES.ENC
wrote (spec/43 R220), AES on two states (R221), BF.DEC of what BF.ENC wrote (spec/44 R253); and the Blowfish block function in
its two forms (44 R242). -/

namespace Sys2Proof.Machine

open Sys2Proof

/-! Bytes of two buffers that hold the same words or blocks. -/

theorem Memory.read_eq_of_readWord_eq {m k : Memory} {a b j : Nat} (h : m.readWord a = k.readWord b) (hj : j < 4) :
    m.read (a + j) = k.read (b + j) := by
  rw [m.read_eq_extractLsb'_readWord a hj, k.read_eq_extractLsb'_readWord b hj, h]

theorem Memory.read_eq_of_readBlock_eq {m k : Memory} {a b i j : Nat} (h : m.readBlock a i = k.readBlock b i) (hj : j < 16) :
    m.read (a + 16 * i + j) = k.read (b + 16 * i + j) := by
  obtain ⟨h0, h1, h2, h3⟩ := Block.mk.inj h
  obtain ⟨r, hr, rfl | rfl | rfl | rfl⟩ : ∃ r, r < 4 ∧ (j = r ∨ j = 4 + r ∨ j = 8 + r ∨ j = 12 + r) :=
    ⟨j % 4, by omega, by omega⟩
  · exact Memory.read_eq_of_readWord_eq h0 hr
  · simpa only [Nat.add_assoc] using Memory.read_eq_of_readWord_eq h1 hr
  · simpa only [Nat.add_assoc] using Memory.read_eq_of_readWord_eq h2 hr
  · simpa only [Nat.add_assoc] using Memory.read_eq_of_readWord_eq h3 hr

theorem Memory.read_eq_of_readHalves_eq {m k : Memory} {a b i j : Nat} (h : m.readHalves a i = k.readHalves b i)
    (hj : j < 8) : m.read (a + 8 * i + j) = k.read (b + 8 * i + j) := by
  obtain ⟨h0, h1⟩ := Prod.mk.inj h
  obtain ⟨r, hr, rfl | rfl⟩ : ∃ r, r < 4 ∧ (j = r ∨ j = 4 + r) := ⟨j % 4, by omega, by omega⟩
  · exact Memory.read_eq_of_readWord_eq h0 hr
  · simpa only [Nat.add_assoc] using Memory.read_eq_of_readWord_eq h1 hr

/-- Two buffers of the same AES blocks hold the same bytes. -/
theorem Memory.read_eq_of_blocks_eq {m k : Memory} {a b n : Nat}
    (h : ∀ i, i < n → m.readBlock a i = k.readBlock b i) {j : Nat} (hj : j < 16 * n) :
    m.read (a + j) = k.read (b + j) := by
  have hblock := Memory.read_eq_of_readBlock_eq (h (j / 16) (by omega)) (Nat.mod_lt j (by decide : 0 < 16))
  rwa [Nat.add_assoc, Nat.add_assoc, Nat.div_add_mod] at hblock

/-- Two buffers of the same Blowfish blocks hold the same bytes. -/
theorem Memory.read_eq_of_halves_eq {m k : Memory} {a b n : Nat}
    (h : ∀ i, i < n → m.readHalves a i = k.readHalves b i) {j : Nat} (hj : j < 8 * n) :
    m.read (a + j) = k.read (b + j) := by
  have hblock := Memory.read_eq_of_readHalves_eq (h (j / 8) (by omega)) (Nat.mod_lt j (by decide : 0 < 8))
  rwa [Nat.add_assoc, Nat.add_assoc, Nat.div_add_mod] at hblock

/-! AES: 43 R220. -/

theorem chainXor_chainXor (x : Block) (v : Option Block) : chainXor (chainXor x v) v = x := by
  cases v with
  | none => rfl
  | some v => exact x.xor_xor_cancel v

/-- Each plaintext block comes back: both commands chain it with the same ciphertext block. -/
theorem aesDecMem_aesEncMem_block {c : AesContext} (hdk : c.dk = invKeySchedule c.ek) (chain : Option Block) (m : Memory)
    {d a e n k : Nat} (hk : k < n) (hda : d = a ∨ d + 16 * n ≤ a ∨ a + 16 * n ≤ d)
    (hed : e = d ∨ e + 16 * n ≤ d ∨ d + 16 * n ≤ e) :
    (aesDecMem c chain (aesEncMem c chain m d a n) e d n).readBlock e k = m.readBlock a k := by
  rw [aesDecMem_block c chain _ e d hk hed, aesEncMem_block c chain m d a hk hda, hdk,
    decryptBlock_encryptBlock c.ek _ c.nr.one_le_val, chainXor_chainXor]

/-! AES: 43 R221. -/

/-- The loop writes destination blocks that depend on the context, the chaining value and the source blocks alone. -/
def SourceDetermined (blocks : AesContext → Option Block → Memory → Nat → Nat → Nat → Memory) : Prop :=
  ∀ (c : AesContext) (chain : Option Block) (m m' : Memory) (d a n : Nat),
    (d = a ∨ d + 16 * n ≤ a ∨ a + 16 * n ≤ d) → (∀ k, k < n → m.readBlock a k = m'.readBlock a k) →
    ∀ k, k < n → (blocks c chain m d a n).readBlock d k = (blocks c chain m' d a n).readBlock d k

/-- Block by block, each from the ciphertext block before it. -/
theorem aesEncMem_sourceDetermined : SourceDetermined aesEncMem := by
  intro c chain m m' d a n hplace hsrc k hk
  induction k with
  | zero =>
    rw [aesEncMem_block c chain m d a hk hplace, aesEncMem_block c chain m' d a hk hplace, hsrc 0 hk]
    simp only [if_true]
  | succ k ih =>
    rw [aesEncMem_block c chain m d a hk hplace, aesEncMem_block c chain m' d a hk hplace, hsrc _ hk]
    simp only [Nat.add_sub_cancel, ih (Nat.lt_of_succ_lt hk)]

theorem aesDecMem_sourceDetermined : SourceDetermined aesDecMem := by
  intro c chain m m' d a n hplace hsrc k hk
  rw [aesDecMem_block c chain m d a hk hplace, aesDecMem_block c chain m' d a hk hplace, hsrc k hk,
    hsrc (k - 1) (Nat.lt_of_le_of_lt (Nat.sub_le k 1) hk)]

/-- What the two runs of 43 R221 agree on: the AES context, the operands, MEM_SIZE and the source bytes. -/
structure AgreeOnSource (s1 s2 : State) : Prop where
  aes : s1.aes = s2.aes
  memSize : s1.params.memSize = s2.params.memSize
  a0 : s1.a0 = s2.a0
  a1 : s1.a1 = s2.a1
  a2 : s1.a2 = s2.a2
  source : ∀ k, k < s1.a2.toNat → s1.mem.read (s1.a1.toNat + k) = s2.mem.read (s1.a1.toNat + k)

theorem AgreeOnSource.operandsGood {s1 s2 : State} (h : AgreeOnSource s1 s2) (hg : BlockOperandsGood 16 s1) :
    BlockOperandsGood 16 s2 := by
  simpa only [BlockOperandsGood, h.memSize, h.a0, h.a1, h.a2] using hg

theorem AgreeOnSource.readBlock {s1 s2 : State} (h : AgreeOnSource s1 s2) {k : Nat} (hk : 16 * k + 16 ≤ s1.a2.toNat) :
    s1.mem.readBlock s1.a1.toNat k = s2.mem.readBlock s1.a1.toNat k := by
  refine Memory.readBlock_congr fun x h1 h2 => ?_
  obtain ⟨j, rfl⟩ := Nat.exists_eq_add_of_le (show s1.a1.toNat ≤ x by omega)
  exact h.source j (by omega)

/-- Where the command completes from one of two agreeing states it completes from the other, with the same output. -/
theorem AgreeOnSource.aesCommand_output {opc : Byte} {blocks : AesContext → Option Block → Memory → Nat → Nat → Nat → Memory}
    {s1 s2 t1 t2 : State} (h : AgreeOnSource s1 s2) (hblocks : SourceDetermined blocks)
    (h1 : aesCommand opc blocks s1 = .next t1) (h2 : aesCommand opc blocks s2 = .next t2) (hf : t1.fault = false) :
    t2.fault = s2.fault ∧ t1.res = t2.res ∧ t1.aes = s1.aes ∧ t2.aes = s2.aes ∧
      ∀ k, k < s1.a2.toNat → t1.mem.read (s1.a0.toNat + k) = t2.mem.read (s1.a0.toNat + k) := by
  obtain ⟨code, hraise⟩ | ⟨c, chain, hc, hb, hch, hdone⟩ := aesCommand_cases opc blocks s1
  · cases hraise.symm.trans h1
    cases hf
  · have hg := (s1.blockFault_eq_none 16).1 hb
    cases hdone.symm.trans h1
    cases (aesCommand_done (h.aes ▸ hc) (h.operandsGood hg) hch).symm.trans h2
    obtain ⟨hlen, hplace⟩ := hg.wholeBlocks_place
    refine ⟨rfl, h.a2, rfl, rfl, fun k hk => Memory.read_eq_of_blocks_eq (n := s1.a2.toNat / 16) (fun i hi => ?_) (by omega)⟩
    simp only [State.setRes_mem, State.setMem_mem, ← h.a0, ← h.a1, ← h.a2]
    exact hblocks c chain _ _ _ _ _ hplace (fun k hk => h.readBlock (by omega)) i hi

/-! Blowfish: 44 R253 and R242. -/

theorem bfMem_decrypt_encrypt_block (c : BfContext) (m : Memory) {d a e n k : Nat} (hk : k < n)
    (hda : d = a ∨ d + 8 * n ≤ a ∨ a + 8 * n ≤ d) (hed : e = d ∨ e + 8 * n ≤ d ∨ d + 8 * n ≤ e) :
    (bfMem (bfDecryptBlock c) (bfMem (bfEncryptBlock c) m d a n) e d n).readHalves e k = m.readHalves a k := by
  rw [bfMem_block _ _ e d hk hed, bfMem_block _ m d a hk hda, bfDecryptBlock_bfEncryptBlock]

/-- BF.ENC or BF.DEC where all checks pass, its memory through the loop (44 R251, R252). -/
theorem bfCommand_eq_next_bfMem {opc : Byte} {f : BfContext → Word × Word → Word × Word} {s : State} {c : BfContext}
    (hc : s.bf = some c) (hg : BlockOperandsGood 8 s) :
    bfCommand opc f s = .next (s.setMem (bfMem (f c) s.mem s.a0.toNat s.a1.toNat (s.a2.toNat / 8))) := by
  rw [bfCommand, hc]
  simp only [(s.blockFault_eq_none 8).2 hg, done]

/-- Subkey i of the P-array, 0 above its end. -/
def BfContext.subkey (c : BfContext) (i : Nat) : Word := c.p.toList.getD i 0

theorem BfContext.subkey_eq (c : BfContext) {i : Nat} (hi : i < 18) : c.subkey i = c.p[i] := by
  rw [BfContext.subkey, List.getD_eq_getElem _ _ (by simpa using hi), Vector.getElem_toList]

/-- The block after the first n rounds of an encryption. -/
def bfRoundsRun (c : BfContext) (lr : Word × Word) : Nat → Word × Word
  | 0 => lr
  | n + 1 => bfRound c.s (c.subkey n) (bfRoundsRun c lr n)

theorem bfEncryptBlock_eq_bfRoundsRun (c : BfContext) (lr : Word × Word) :
    bfEncryptBlock c lr = bfFinish c.p[16] c.p[17] (bfRoundsRun c lr 16) :=
  congrArg (bfFinish c.p[16] c.p[17]) <| fold_eq_of_steps (bfRoundsRun c lr) _ fun i hi => by
    rw [bfRoundsRun, c.subkey_eq (by omega)]

end Sys2Proof.Machine

namespace Sys2Proof.Proofs

open Sys2Proof Sys2Proof.Machine

/-- Settles O40: the columns of the tables are the columns of the mix, of the substituted and shifted state. -/
theorem tableRoundsAreFipsRounds : Obligations.TableRoundsAreFipsRounds := by
  unfold Obligations.TableRoundsAreFipsRounds
  exact fun s k => ⟨encRound_eq s k, encFinalRound_eq s k, decRound_eq s k, decFinalRound_eq s k⟩

/-- Settles O45: the destination of AES.ENC is a legal source, and each block of it gives back its plaintext block. -/
theorem aesCommandRoundTrip : Obligations.AesCommandRoundTrip := by
  unfold Obligations.AesCommandRoundTrip
  intro s t c d hc hdk h ht hd hinside hplace
  cases exec_completes h ht with
  | @aesEnc _ c' chain hc' hb hch =>
    obtain rfl := Option.some.inj (hc'.symm.trans hc)
    have hg := (s.blockFault_eq_none 16).1 hb
    obtain ⟨hlen, hda⟩ := hg.wholeBlocks_place
    obtain ⟨h0, -, h2, hmod, hr, -, -⟩ := hg
    have hg' (m : Memory) : BlockOperandsGood 16 { s with a0 := d, a1 := s.a0, mem := m, res := s.a2 } :=
      ⟨hd, h0, h2, hmod, hinside, hr, hplace⟩
    obtain ⟨-, hed⟩ := (hg' s.mem).wholeBlocks_place
    refine ⟨_, aesCommand_done (s := { s with a0 := d, a1 := s.a0, mem := _, res := s.a2 }) hc (hg' _) hch, ht, rfl,
      fun k hk => ?_⟩
    exact Memory.read_eq_of_blocks_eq (fun i hi => aesDecMem_aesEncMem_block hdk chain s.mem hi hda hed) (hlen.symm ▸ hk)

/-- Settles O46: AES.ENC and AES.DEC are one command around two loops, each of them determined by its source. -/
theorem aesOutputFromContextAndSourceOnly : Obligations.AesOutputFromContextAndSourceOnly := by
  unfold Obligations.AesOutputFromContextAndSourceOnly
  intro i s1 s2 t1 t2 hi _ hs2 haes hsize h0 h1 h2 hsrc ht1 ht2 hf
  have hagree : AgreeOnSource s1 s2 := ⟨haes, hsize, h0, h1, h2, hsrc⟩
  rw [← hs2]
  obtain rfl | rfl := hi
  · exact hagree.aesCommand_output aesEncMem_sourceDetermined ht1 ht2 hf
  · exact hagree.aesCommand_output aesDecMem_sourceDetermined ht1 ht2 hf

/-- Settles O55: the destination of BF.ENC is a legal source, and each block of it gives back its plaintext block. -/
theorem bfCommandRoundTrip : Obligations.BfCommandRoundTrip := by
  unfold Obligations.BfCommandRoundTrip
  intro s t d h ht hd hinside hplace
  cases exec_completes h ht with
  | @bfEnc _ c hc hb =>
    have hg := (s.blockFault_eq_none 8).1 hb
    obtain ⟨hlen, hda⟩ := hg.wholeBlocks_place
    obtain ⟨h0, -, h2, hmod, hr, -, -⟩ := hg
    have hg' (m : Memory) : BlockOperandsGood 8 { s with a0 := d, a1 := s.a0, mem := m } :=
      ⟨hd, h0, h2, hmod, hinside, hr, hplace⟩
    obtain ⟨-, hed⟩ := (hg' s.mem).wholeBlocks_place
    refine ⟨_, bfCommand_eq_next_bfMem (s := { s with a0 := d, a1 := s.a0, mem := _ }) hc (hg' _), ht, rfl, fun k hk => ?_⟩
    exact Memory.read_eq_of_halves_eq (fun i hi => bfMem_decrypt_encrypt_block c s.mem hi hda hed) (hlen.symm ▸ hk)

/-- Settles O49: the states are those of `bfRoundsRun`; the other form has the next subkey already added to its left half. -/
theorem bfEncryptBlockForms : Obligations.BfEncryptBlockForms := by
  unfold Obligations.BfEncryptBlockForms
  intro c L R
  refine ⟨⟨fun n => (bfRoundsRun c (L, R) n).1, fun n => (bfRoundsRun c (L, R) n).2, rfl, rfl, fun i hi => ?_,
    bfEncryptBlock_eq_bfRoundsRun c (L, R)⟩, fun n => (bfRoundsRun c (L, R) n).1 ^^^ c.subkey n,
    fun n => (bfRoundsRun c (L, R) n).2, ?_, rfl, fun i hi => ?_, ?_⟩
  · rw [← c.subkey_eq (by omega : i < 18)]
    exact ⟨rfl, rfl⟩
  · exact congrArg (L ^^^ ·) (c.subkey_eq (by decide))
  · rw [← c.subkey_eq (by omega : i + 1 < 18)]
    exact ⟨rfl, rfl⟩
  · simp only [bfEncryptBlock_eq_bfRoundsRun, bfFinish, c.subkey_eq (by decide : 16 < 18)]

end Sys2Proof.Proofs

/-! SUPPORT. Command scripts (spec/30 R126, R131): what an operand and a line stand for, that a move of the machine does not look
at the host's further actions, and so that a run of actions is a run of the first and then of the others. -/

namespace Sys2Proof.Machine

open Sys2Proof

/-! Operands and lines: 30 R126. -/

/-- The operand is a number or a defined symbol that stands for the word. -/
theorem operandValue_of_num_or_sym {syms : Symbols} {o : Operand} {v : Word}
    (h : o = .num v.toNat ∨ ∃ name, o = .sym name ∧ syms.lookup name = some v.toNat) : operandValue syms o = some v := by
  obtain rfl | ⟨name, rfl, hname⟩ := h
  · exact operandValue_num_toNat syms v
  · simp [operandValue, hname, v.isLt]

theorem operandWrites_of_values {syms : Symbols} {os : List Operand} {vs : List Word}
    (h : List.Forall₂ (fun o v => operandValue syms o = some v) os vs) (index : Nat) :
    operandWrites syms index os = some ((vs.zipIdx index).map fun vk => HostAction.writeReg vk.2 vk.1) := by
  induction h generalizing index with
  | nil => rfl
  | cons ho _ ih => simp [operandWrites, ho, ih]

theorem scriptActions_cons (syms : Symbols) (l : ScriptLine) (ls : List ScriptLine) :
    scriptActions syms (l :: ls) =
      (lineActions syms l).bind fun here => (scriptActions (lineSymbols syms l) ls).map fun rest => here ++ rest := by
  rw [scriptActions]
  cases lineActions syms l with
  | none => rfl
  | some here =>
    cases scriptActions (lineSymbols syms l) ls with
    | none => rfl
    | some rest => rfl

/-- The actions of a script cut in two: the second part has the symbols after the first. -/
theorem scriptActions_append {syms : Symbols} {xs ys : List ScriptLine} {as bs : List HostAction}
    (hx : scriptActions syms xs = some as) (hy : scriptActions (xs.foldl lineSymbols syms) ys = some bs) :
    scriptActions syms (xs ++ ys) = some (as ++ bs) := by
  induction xs generalizing syms as with
  | nil =>
    cases hx
    exact hy
  | cons l ls ih =>
    rw [scriptActions_cons] at hx
    obtain ⟨here, hl, hx⟩ := Option.bind_eq_some_iff.1 hx
    obtain ⟨rest, hls, rfl⟩ := Option.map_eq_some_iff.1 hx
    rw [List.cons_append, scriptActions_cons, hl, ih hls hy, List.append_assoc]
    rfl

/-! Moves of the machine and the host's queue (log entry 1). -/

/-- The state with these as the host's further actions. -/
def State.setHost (s : State) (h : List HostAction) : State := { s with host := h }

@[simp] theorem State.setHost_a2 (s : State) (h : List HostAction) : (s.setHost h).a2 = s.a2 := rfl
@[simp] theorem State.setHost_fault (s : State) (h : List HostAction) : (s.setHost h).fault = s.fault := rfl
@[simp] theorem State.setHost_rc4 (s : State) (h : List HostAction) : (s.setHost h).rc4 = s.rc4 := rfl
@[simp] theorem State.setHost_aes (s : State) (h : List HostAction) : (s.setHost h).aes = s.aes := rfl
@[simp] theorem State.setHost_bf (s : State) (h : List HostAction) : (s.setHost h).bf = s.bf := rfl
@[simp] theorem State.setHost_blockFault (s : State) (h : List HostAction) (n : Nat) :
    (s.setHost h).blockFault n = s.blockFault n := rfl

/-- The outcome with these as the host's further actions. -/
def withHost (h : List HostAction) : StepOutcome → StepOutcome
  | .next t => .next (t.setHost h)
  | .fault r => .fault r
  | .refused r => .refused r

section

variable (s : State) (h : List HostAction)

theorem withHost_ite (P : Prop) [Decidable P] (o o' : StepOutcome) :
    withHost h (if P then o else o') = if P then withHost h o else withHost h o' := apply_ite _ _ _ _

theorem rc4Command_setHost (opc : Byte) : rc4Command opc (s.setHost h) = withHost h (rc4Command opc s) := by
  simp only [rc4Command, State.setHost_rc4]
  cases s.rc4 with
  | none => rfl
  | some c =>
    simp only [withHost_ite]
    rfl

theorem aesCommand_setHost (opc : Byte) (blocks : AesContext → Option Block → Memory → Nat → Nat → Nat → Memory) :
    aesCommand opc blocks (s.setHost h) = withHost h (aesCommand opc blocks s) := by
  simp only [aesCommand, State.setHost_aes, State.setHost_blockFault]
  cases s.aes with
  | none => rfl
  | some c =>
    cases s.blockFault 16 with
    | some code => rfl
    | none =>
      simp only
      cases c.startChain with
      | none => rfl
      | some chain => rfl

theorem bfCommand_setHost (opc : Byte) (f : BfContext → Word × Word → Word × Word) :
    bfCommand opc f (s.setHost h) = withHost h (bfCommand opc f s) := by
  simp only [bfCommand, State.setHost_bf, State.setHost_blockFault]
  cases s.bf with
  | none => rfl
  | some c =>
    cases s.blockFault 8 with
    | none => rfl
    | some code => rfl

theorem execAesInit_setHost (mode : ModeField) : execAesInit mode (s.setHost h) = withHost h (execAesInit mode s) := by
  simp only [execAesInit, State.setHost_a2]
  cases cipherModeOf mode with
  | none => rfl
  | some m =>
    cases AesRounds.ofKeyLength s.a2.toNat with
    | none => rfl
    | some nr =>
      simp only [withHost_ite]
      rfl

/-- A command does not look at the host's further actions. -/
theorem exec_setHost (i : Instr) : exec i (s.setHost h) = withHost h (exec i s) := by
  cases i with
  | rc4Enc | rc4Dec => exact rc4Command_setHost s h _
  | aesEnc | aesDec => exact aesCommand_setHost s h _ _
  | bfEnc | bfDec => exact bfCommand_setHost s h _ _
  | aesInit mode => exact execAesInit_setHost s h mode
  | aesIsInit => rfl
  | _ =>
    simp only [exec, execPkcs5PadLen, execPkcs5Pad, execPkcs5UnpadLen, execPkcs5ChkLen, execRc4Init, execBfInit, withHost_ite]
    rfl

theorem submit_setHost (w : Word) : submit w (s.setHost h) = withHost h (submit w s) := by
  simp only [submit, withHost_ite, State.setHost_fault]
  cases decode w with
  | ok i =>
    simp only [exec_setHost]
    rfl
  | error e => rfl

theorem hostWriteMem_setHost (a : Nat) (v : Byte) : hostWriteMem a v (s.setHost h) = withHost h (hostWriteMem a v s) := by
  simp only [hostWriteMem, withHost_ite]
  rfl

theorem hostAct_setHost (a : HostAction) : hostAct a (s.setHost h) = withHost h (hostAct a s) :=
  match a with
  | .writeReg 0 v => submit_setHost s h v
  | .writeReg 1 _ | .writeReg 2 _ | .writeReg 3 _ | .writeReg (_ + 4) _ => rfl
  | .writeMem a v => hostWriteMem_setHost s h a v
  | .reset => rfl

end

/-- One step of a run: the first action, with the others still to come. -/
theorem step_host_cons (s : State) (a : HostAction) (rest : List HostAction) :
    step { s with host := a :: rest } = withHost rest (hostAct a s) :=
  hostAct_setHost s rest a

/-- A run of some actions leaves none of them, and a run of more goes on from where it led. -/
theorem runActions_append {s t : State} {xs : List HostAction} (ys : List HostAction)
    (h : runActions xs.length { s with host := xs } = .next t) :
    t.host = [] ∧
      runActions (xs ++ ys).length { s with host := xs ++ ys } = runActions ys.length { t with host := ys } := by
  induction xs generalizing s with
  | nil =>
    cases h
    exact ⟨rfl, rfl⟩
  | cons a xs ih =>
    rw [List.length_cons, runActions, step_host_cons] at h
    rw [List.cons_append, List.length_cons, runActions, step_host_cons]
    cases hact : hostAct a s with
    | next u =>
      rw [hact] at h
      exact ih h
    | fault r =>
      rw [hact] at h
      cases h
    | refused r =>
      rw [hact] at h
      cases h

theorem State.withScript_of_actions (s : State) {script : List ScriptLine} {actions : List HostAction}
    (h : scriptActions startSymbols script = some actions) : s.withScript script = some { s with host := actions } := by
  rw [State.withScript, h, Option.map_some]

theorem State.runScript_of_actions (s : State) {script : List ScriptLine} {actions : List HostAction}
    (h : scriptActions startSymbols script = some actions) :
    s.runScript script = some (runActions actions.length { s with host := actions }) := by
  rw [State.runScript, s.withScript_of_actions h, Option.map_some]

theorem State.withScript_of_none (s : State) {script : List ScriptLine} (h : scriptActions startSymbols script = none) :
    s.withScript script = none := by
  rw [State.withScript, h, Option.map_none]

/-- A script that runs has actions, and its run is theirs. -/
theorem State.actions_of_runScript {s : State} {script : List ScriptLine} {o : StepOutcome} (h : s.runScript script = some o) :
    ∃ actions, scriptActions startSymbols script = some actions ∧
      runActions actions.length { s with host := actions } = o := by
  cases ha : scriptActions startSymbols script with
  | none => simp [State.runScript, s.withScript_of_none ha] at h
  | some actions => exact ⟨actions, rfl, Option.some.inj ((s.runScript_of_actions ha).symm.trans h)⟩

/-- Only `.equ` changes the symbols. -/
theorem lineSymbols_of_ne_equ (syms : Symbols) {l : ScriptLine} (h : ∀ name x, l ≠ .equ name x) :
    lineSymbols syms l = syms := by
  cases l with
  | equ name x => exact absurd rfl (h name x)
  | _ => rfl

end Sys2Proof.Machine

namespace Sys2Proof.Proofs

open Sys2Proof Sys2Proof.Machine

/-- Settles O56: the operands have the words as values, so the line writes them in order and then its command word. -/
theorem commandLineActions : Obligations.CommandLineActions := by
  unfold Obligations.CommandLineActions
  refine ⟨rfl, fun mode => rfl, rfl, fun syms i os vs hlen hos => ?_⟩
  have hvalues := hos.imp fun _ _ => operandValue_of_num_or_sym
  have hcount : os.length = operandCount i := hos.length_eq.trans hlen
  rw [lineActions, commandActions, if_pos hcount, operandWrites_of_values hvalues, Option.map_some]

/-- Settles O58: the symbols and actions line by line; the run by the actions, none of which looks at those after it. -/
theorem scriptRunsInOrder : Obligations.ScriptRunsInOrder := by
  unfold Obligations.ScriptRunsInOrder
  refine ⟨fun syms => rfl, scriptActions_cons, fun syms l h => lineSymbols_of_ne_equ syms h, fun syms name x => ?_,
    fun s script actions h => ⟨s.withScript_of_actions h, s.runScript_of_actions h⟩, fun s script h => ?_,
    fun s t xs ys h => runActions_append ys h, fun s t xs ys actions hx hy => ?_⟩
  · refine ⟨List.lookup_cons_self, fun other hne => ?_⟩
    rw [lineSymbols, List.lookup_cons, beq_false_of_ne hne]
  · have hnone := s.withScript_of_none h
    exact ⟨hnone, by rw [State.runScript, hnone, Option.map_none]⟩
  · obtain ⟨first, hfirst, hrun⟩ := State.actions_of_runScript hx
    obtain ⟨hdone, hrest⟩ := runActions_append actions hrun
    exact ⟨hdone, (s.runScript_of_actions (scriptActions_append hfirst hy)).trans (congrArg some hrest)⟩

end Sys2Proof.Proofs
